-- ==== Sys2Proof/Word.lean ====
section
/-! DEFINITION. The plain widths and number types of the Palcord 8L4: bytes, the small sets that a
byte layout carries, and the numbers of ports, lanes, positions and recipe slots. -/

namespace Sys2Proof

/-- One byte of a station port. -/
abbrev Byte := BitVec 8

/-- A lane set: bit n stands for lane n (09_station_ports.md R177). -/
abbrev LaneSet := BitVec 8

/-- A junction set: bit j stands for junction j (00_scope.md, "Numbering"; R177). -/
abbrev JunctionSet := BitVec 7

/-- A set of the nine notice kinds, in the bit order of R174. -/
abbrev KindSet := BitVec 9

/-- Station ports P0 to P3. -/
abbrev PortNo := Fin 4

/-- Lanes 0 to 7. -/
abbrev LaneNo := Fin 8

/-- Twisting positions 0 to 9. -/
abbrev PosNo := Fin 10

/-- Recipe slots 0 to 3. -/
abbrev SlotNo := Fin 4

/-- The levels of a quadrature pair, `(A, B)` (02_length_tallies.md R24). -/
abbrev Pair := Bool × Bool

end Sys2Proof
end

