-- ==== Sys2Proof/Config.lean ====
section
/-! DEFINITION. The free values: what the manual leaves open. None has a body, so no proof can rest on
one of its values. Each is applied to the model's own counter `State.freeTick` or to the operand the
value depends on. -/

namespace Sys2Proof

/-- Which of two events of one count is taken first, where either order may be taken and the outcomes
differ: a row falling due and the oldest row's timeout (R125), a window end and the tally limit
(R57, R58, R29); and which of the two reasons NORMAL and SHORT a plan that leaves DEFERRED_END has (R137,
R142). FREE VALUE, assumption log 5, 6 and 15; safe. -/
opaque Config.freeOrder : Nat → Bool

/-- Which of the marks handed over at one event is taken next, when the pool has not a free entry for
each of them (R83). FREE VALUE, assumption log 7; safe. -/
opaque Config.freePick : Nat → Nat

/-- The four bytes in which a signed wheel count outside the range of four bytes is sent (R175 states
none). FREE VALUE, assumption log 8; safe. -/
opaque Config.unstatedCount : Int → BitVec 32

end Sys2Proof
end

