-- ==== Sys2Proof/Syntax.lean ====
section
/-! DEFINITION. The commands of the block: one constructor of `Instr` per row of spec/opcode_table.json,
with the row's operands; and the station-port commands that a command byte can name (R174). -/

namespace Sys2Proof

/-- The role of a station port (R162). -/
inductive Role where
  | twist | knot | pack | supervise
  deriving DecidableEq, Repr

/-- The commands of the command table (09_station_ports.md R174). -/
inductive Command where
  | readStatus | readNotices | setInterest | readLane | readLine | readMarks | readPackage
  | startLane | stopLane | spliceBegin | spliceEnd | readTrim
  | panelStart | panelHalt | knotDone | readRow
  | cutDone | releasePackage | readCuts
  | setMode | setGeometry | setPosition | setFactor | mapLane | writeRecipe | writePattern
  | assignRecipe | calibrate | clearLane | ackStop | clearCounts | forceLine | softReset | readCal
  deriving DecidableEq, Repr

/-- The direction of a count: forward is +1, reverse is -1 (R24). -/
inductive Direction where
  | forward | reverse
  deriving DecidableEq, Repr

/-- A quadrature decoder: that of a position's measuring wheel or that of the draw roller. -/
inductive Decoder where
  | wheel (k : PosNo)
  | draw
  deriving DecidableEq, Repr

/-- What a cut is named by: a lane's COIL entry or the PANEL entry (R145). -/
inductive CutName where
  | lane (l : LaneNo)
  | panel
  deriving DecidableEq, Repr

/-- The fields of SET_POSITION, in the order in which they follow the position number (R6). -/
inductive PositionField where
  | inService | cRef | pc | np
  deriving DecidableEq, Repr

/-- The commands the block takes, one constructor per row of spec/opcode_table.json.

A row that is a served step names the port `p` it comes from and carries its parameters as the bytes
of R174 do: any value of the width is admitted, and the command's own rule judges it.
`straps` holds ROLEn_A in bit 2n and ROLEn_B in bit 2n + 1; `lines` holds WHA_k in bit 2k, WHB_k in
bit 2k + 1, DRA in bit 20 and DRB in bit 21, the levels found as the reset ends. -/
inductive Instr where
  | powerOnReset (straps : Byte) (lines : BitVec 22)
  | hardReset (straps : Byte) (lines : BitVec 22)
  | transferOpen (p : PortNo)
  | commandByte (p : PortNo) (b : Byte)
  | dataByte (p : PortNo) (b : Byte)
  | transferEnd (p : PortNo)
  | transferBreak (p : PortNo)
  | transferPause (p : PortNo)
  | readStatus (p : PortNo)
  | readNotices (p : PortNo)
  | setInterest (p : PortNo) (mask : BitVec 16)
  | readLane (p : PortNo) (lane : Byte)
  | readLine (p : PortNo)
  | readMarks (p : PortNo) (lane first : Byte)
  | readPackage (p : PortNo)
  | startLane (p : PortNo) (lane : Byte)
  | stopLane (p : PortNo) (lane : Byte)
  | spliceBegin (p : PortNo) (lane : Byte)
  | spliceEnd (p : PortNo) (lane : Byte)
  | readTrim (p : PortNo) (lane : Byte)
  | panelStart (p : PortNo)
  | panelHalt (p : PortNo)
  | knotDone (p : PortNo) (row : BitVec 16) (tied : Byte)
  | readRow (p : PortNo)
  | cutDone (p : PortNo) (target : Byte)
  | releasePackage (p : PortNo)
  | readCuts (p : PortNo)
  | setMode (p : PortNo) (mode : Byte)
  | setGeometry (p : PortNo) (dKnot dCut kDraw : BitVec 24)
  | setPosition (p : PortNo) (position : Byte)
  | setPositionField (p : PortNo) (field : PositionField) (value : Nat)
  | setFactor (p : PortNo) (position : Byte) (k : BitVec 24) (lock : Byte)
  | mapLane (p : PortNo) (lane target : Byte)
  | writeRecipe (p : PortNo) (slot first : Byte)
  | writeRecipeField (p : PortNo) (index value : Nat)
  | writePattern (p : PortNo) (slot first : Byte)
  | writePatternEntry (p : PortNo) (entry : BitVec 16)
  | assignRecipe (p : PortNo) (target slot timing : Byte)
  | calibrate (p : PortNo) (position n tol : Byte)
  | clearLane (p : PortNo) (lane : Byte)
  | ackStop (p : PortNo) (reasons : Byte)
  | clearCounts (p : PortNo) (lanes : Byte)
  | forceLine (p : PortNo) (line setting : Byte)
  | softReset (p : PortNo)
  | readCal (p : PortNo) (position : Byte)
  | wheelCountForward (k : PosNo)
  | wheelCountReverse (k : PosNo)
  | flyerPulse (k : PosNo)
  | capstanRisingEdge (k : PosNo)
  | capstanFallingEdge (k : PosNo)
  | drawCount (d : Direction)
  | threadingEnd (l : LaneNo)
  | windowEnd (l : LaneNo)
  | spliceOverlong (l : LaneNo)
  | tallyLimitReached (l : LaneNo)
  | coilCutDue (l : LaneNo)
  | cutLate (target : CutName)
  | rowFallsDue
  | rowTimeout
  | tailReached
  | passAClose (k : PosNo)
  | passBClose (k : PosNo)
  | sckRisingEdge (p : PortNo) (sdi cdn : Bool)
  | bothLinesChange (input : Decoder)
  deriving DecidableEq, Repr

end Sys2Proof
end

