-- ==== Sys2Proof/Decode.lean ====
section
/-! DEFINITION. The command table of 09_station_ports.md R174 (codes, roles, parameter bytes, kinds) and
of R176 (widths of the recipe fields); and `decodeTableWord`, which has no row to read: no row of
spec/opcode_table.json gives bits. -/

namespace Sys2Proof

/-- The code of a command (R174). -/
def Command.code : Command → Byte
  | .readStatus => 0x01 | .readNotices => 0x02 | .setInterest => 0x03 | .readLane => 0x04
  | .readLine => 0x05 | .readMarks => 0x06 | .readPackage => 0x07
  | .startLane => 0x10 | .stopLane => 0x11 | .spliceBegin => 0x12 | .spliceEnd => 0x13
  | .readTrim => 0x14
  | .panelStart => 0x20 | .panelHalt => 0x21 | .knotDone => 0x22 | .readRow => 0x23
  | .cutDone => 0x30 | .releasePackage => 0x31 | .readCuts => 0x32
  | .setMode => 0x40 | .setGeometry => 0x41 | .setPosition => 0x42 | .setFactor => 0x43
  | .mapLane => 0x44 | .writeRecipe => 0x45 | .writePattern => 0x46 | .assignRecipe => 0x47
  | .calibrate => 0x48 | .clearLane => 0x49 | .ackStop => 0x4A | .clearCounts => 0x4B
  | .forceLine => 0x4C | .softReset => 0x4D | .readCal => 0x4E

/-- Every command, in the order of the command table. -/
def Command.all : List Command :=
  [.readStatus, .readNotices, .setInterest, .readLane, .readLine, .readMarks, .readPackage,
   .startLane, .stopLane, .spliceBegin, .spliceEnd, .readTrim,
   .panelStart, .panelHalt, .knotDone, .readRow,
   .cutDone, .releasePackage, .readCuts,
   .setMode, .setGeometry, .setPosition, .setFactor, .mapLane, .writeRecipe, .writePattern,
   .assignRecipe, .calibrate, .clearLane, .ackStop, .clearCounts, .forceLine, .softReset, .readCal]

/-- The command a code names, or none (R161: a code that names no command is refused). -/
def Command.ofCode (b : Byte) : Option Command :=
  Command.all.find? fun c => c.code == b

/-- The roles a command is permitted to (R174; READ_PACKAGE to PACK and SUPERVISE, R161). -/
def Command.permits : Command → Role → Bool
  | .readStatus, _ | .readNotices, _ | .setInterest, _ | .readLane, _ | .readLine, _
  | .readMarks, _ => true
  | .readPackage, r => r == .pack || r == .supervise
  | .startLane, r | .stopLane, r | .spliceBegin, r | .spliceEnd, r | .readTrim, r => r == .twist
  | .panelStart, r | .panelHalt, r | .knotDone, r | .readRow, r => r == .knot
  | .cutDone, r | .releasePackage, r | .readCuts, r => r == .pack
  | .setMode, r | .setGeometry, r | .setPosition, r | .setFactor, r | .mapLane, r
  | .writeRecipe, r | .writePattern, r | .assignRecipe, r | .calibrate, r | .clearLane, r
  | .ackStop, r | .clearCounts, r | .forceLine, r | .softReset, r | .readCal, r => r == .supervise

/-- The bytes of a command's first step: all parameters of an action or read command, the header of a
field-wise one (R163, R174). -/
def Command.firstBytes : Command → Nat
  | .readStatus | .readNotices | .readLine | .readPackage | .panelStart | .panelHalt | .readRow
  | .releasePackage | .readCuts | .softReset => 0
  | .readLane | .startLane | .stopLane | .spliceBegin | .spliceEnd | .readTrim | .cutDone | .setMode
  | .setPosition | .clearLane | .ackStop | .clearCounts | .readCal => 1
  | .setInterest | .readMarks | .mapLane | .writeRecipe | .writePattern | .forceLine => 2
  | .knotDone | .assignRecipe | .calibrate => 3
  | .setFactor => 5
  | .setGeometry => 9

/-- The field-wise commands (R174): a header, then fields or entries, each served by itself. -/
def Command.isFieldWise (c : Command) : Bool := c == .setPosition || c == .writeRecipe || c == .writePattern

/-- The width in bytes of a field of SET_POSITION (R174). -/
def PositionField.bytes : PositionField → Nat
  | .inService => 1 | .cRef => 3 | .pc => 1 | .np => 1

/-- The width in bytes of the recipe field of an index (R176); 0 beyond field 28. -/
def recipeFieldBytes (index : Nat) : Nat :=
  [2, 1, 3, 1, 1, 1, 1, 1, 1, 2, 3, 2, 2, 2, 3, 1, 2, 1, 1, 2, 2, 2, 2, 2, 2, 1, 1, 2, 1].getD index 0

/-- The role that the sampled levels of a port's straps give (R162). -/
def Role.ofStraps : (a b : Bool) → Role
  | false, false => .twist
  | true, false => .knot
  | false, true => .pack
  | true, true => .supervise

/-- The command that a word spells by the bits of spec/opcode_table.json: no row of the table gives
bits, so no word spells one. -/
def decodeTableWord (_nbits _w : Nat) : Option Instr := none

end Sys2Proof
end

