-- ==== Sys2Proof/Machine/Records.lean ====
section
/-! DEFINITION. The records of the part as plain data, each with the names of the chapter that owns it. -/

namespace Sys2Proof.Machine

/-- Lane states (01_lanes_and_positions.md R1). -/
inductive LaneState where
  | idle | threading | run | splicing | fault | stopping
  deriving DecidableEq, Repr

/-- Fault causes (R18); no cause is `none` of the Option that holds one. -/
inductive FaultCause where
  | trimLimit | wheelSlip | spliceOverlong | tallyLimit
  deriving DecidableEq, Repr

/-- Line modes (01, "Line mode"). -/
inductive LineMode where
  | rope | net
  deriving DecidableEq, Repr

/-- Coil plan states (08_cuts_and_packages.md R137). -/
inductive PlanState where
  | none | watching | due | deferredEnd
  deriving DecidableEq, Repr

/-- Reasons of a COIL cut (08, table of cuts). -/
inductive CutReason where
  | normal | short | endCut
  deriving DecidableEq, Repr

/-- The coil plan of a lane (R137). -/
structure CoilPlan where
  state : PlanState
  planPos : Nat
  reason : CutReason
  deriving DecidableEq, Repr

/-- The five counters of a lane (R2). -/
structure Counters where
  windows : Nat
  high : Nat
  low : Nat
  splices : Nat
  slips : Nat
  deriving DecidableEq, Repr

/-- The lane record (01, "The lane record"), with the flag trim_limited (R54) and the coil plan (R137).
`tally` is T in 1/256 micrometres (R26). -/
structure Lane where
  state : LaneState
  position : Option PosNo
  tally : Nat
  coilStart : Nat
  slot : SlotNo
  pendingSlot : Option SlotNo
  trim : Int
  lastTpm : Option Nat
  windowStart : Nat
  windowPulses : Nat
  capstanPulses : Nat
  periodIndex : Nat
  highCount : Nat
  lowCount : Nat
  limitStrike : Bool
  slipRun : Nat
  pitchRun : Nat
  spliceStart : Option Nat
  faultCause : Option FaultCause
  counters : Counters
  marksLost : Bool
  trimLimited : Bool
  lastRowTally : Option Nat
  plan : CoilPlan
  deriving DecidableEq, Repr

/-- A position record (01, "The position table"). -/
structure Position where
  inService : Bool
  k : Nat
  kLocked : Bool
  cRef : Nat
  pc : Nat
  np : Nat
  mappedLane : Option LaneNo
  deriving DecidableEq, Repr

/-- States of a calibration record (03_wheel_calibration.md R42). -/
inductive CalState where
  | idle | passA | passB | done
  deriving DecidableEq, Repr

/-- Outcomes of a calibration (R42). -/
inductive CalResult where
  | pass | fail | aborted
  deriving DecidableEq, Repr

/-- Reasons of a FAIL (R42). -/
inductive CalCause where
  | noCount | range | tolerance
  deriving DecidableEq, Repr

/-- A calibration record (R42). -/
structure CalRecord where
  state : CalState
  started : Bool
  lane : Option LaneNo
  n : Option Nat
  calTol : Option Nat
  edges : Nat
  nRun : Int
  nA : Option Int
  nB : Option Int
  kA : Option Nat
  kB : Option Nat
  k : Option Nat
  result : Option CalResult
  cause : Option CalCause
  stored : Bool
  deriving DecidableEq, Repr

/-- trim_start (06_recipes_and_patterns.md, field 8). -/
inductive TrimStart where
  | mid | keep
  deriving DecidableEq, Repr

/-- A recipe slot: its 29 fields in the order of their indices, and the pattern of 32 rows (06, "The
recipe slot"). -/
structure Recipe where
  targetTpm : Nat
  tolPm : Nat
  windowMm : Nat
  period : Nat
  twoStep : Bool
  threshold : Nat
  trimMin : Int
  trimMax : Int
  trimStart : TrimStart
  slipPm : Nat
  threadMm : Nat
  spliceMaxMm : Nat
  coilM : Nat
  minCoilM : Nat
  overlengthMm : Nat
  maxSplices : Nat
  spliceClearMm : Nat
  stopOnFault : Bool
  netWidth : Nat
  pitch : Nat
  allowance : Nat
  feedTol : Nat
  rowTimeout : Nat
  leadInMm : Nat
  tailMm : Nat
  selvedgeRows : Nat
  selvedgeMask : JunctionSet
  panelRows : Nat
  patternLen : Nat
  pattern : Vector JunctionSet 32
  deriving DecidableEq, Repr

/-- Kinds of mark (05_the_mark_store.md R78). -/
inductive MarkKind where
  | splice | twistZone | slip | pitch | missedKnot | extraKnot
  deriving DecidableEq, Repr

/-- The sense of a twist zone (R61, R78). -/
inductive Sense where
  | high | low | both
  deriving DecidableEq, Repr

/-- A mark (R78). An open SPLICE has no extent. `made` is its place in the order of making (R86). -/
structure Mark where
  kind : MarkKind
  lane : LaneNo
  position : Nat
  extent : Option Nat
  sense : Option Sense
  row : Option Nat
  junction : Option Nat
  made : Nat
  deriving DecidableEq, Repr

/-- The mark store: one list per lane, and the number the next mark made takes (R80, R86). -/
structure MarkStore where
  lists : Vector (List Mark) 8
  nextMade : Nat
  deriving DecidableEq, Repr

/-- Line-level state: mode, draw tally in 1/256 micrometres (R32), geometry (R34), line slots (R104). -/
structure Line where
  mode : LineMode
  drawTally : Nat
  dKnot : Nat
  dCut : Nat
  kDraw : Nat
  lineSlot : SlotNo
  pendingLineSlot : Option SlotNo
  deriving DecidableEq, Repr

/-- States of the panel record (07_knotting_schedule.md R112). -/
inductive PanelState where
  | none | laying | finishing | cutWait
  deriving DecidableEq, Repr

/-- The panel record (R112). -/
structure Panel where
  state : PanelState
  netWidth : Option Nat
  drawStart : Nat
  nextRow : Nat
  lastClosedRow : Option Nat
  tailReached : Bool
  halt : Bool
  rowsKnotted : Nat
  rowsTimedOut : Nat
  rowsSkipped : Nat
  deriving DecidableEq, Repr

/-- A row record of the outstanding row list (R123); `captured` holds one tally in micrometres per
lane of the panel, in lane order. -/
structure RowRecord where
  row : Nat
  expected : JunctionSet
  dueDraw : Nat
  timeoutDraw : Nat
  captured : List Nat
  deriving DecidableEq, Repr

/-- What a cut cuts: a lane's coil for a reason, or the lanes of a panel (R141). -/
inductive CutWhat where
  | coil (lane : LaneNo) (reason : CutReason)
  | panel (lanes : LaneSet)
  deriving DecidableEq, Repr

/-- States of a cut entry (R141). -/
inductive EntryState where
  | held | requested
  deriving DecidableEq, Repr

/-- An entry of the cut list (R141). -/
structure CutEntry where
  what : CutWhat
  duePos : Nat
  state : EntryState
  late : Bool
  deriving DecidableEq, Repr

/-- A deferred cut (R142): due, tested for lateness, without an entry. -/
structure DeferredCut where
  what : CutWhat
  duePos : Nat
  late : Bool
  deriving DecidableEq, Repr

/-- Kinds of a package (R148). -/
inductive PackageKind where
  | coil | panel
  deriving DecidableEq, Repr

/-- The flags of a package (R150, R151), in the bit order of R179. -/
structure PackageFlags where
  short : Bool
  endCut : Bool
  overlength : Bool
  spliceExcess : Bool
  marksIncomplete : Bool
  marksTruncated : Bool
  trimLimited : Bool
  rowsSkipped : Bool
  deriving DecidableEq, Repr

/-- The totals of a package: marks gone out, by kind (R148, R149). -/
structure Totals where
  splice : Nat
  twistZone : Nat
  slip : Nat
  pitch : Nat
  missedKnot : Nat
  extraKnot : Nat
  deriving DecidableEq, Repr

/-- An entry of a package's mark list (R149): offset and extent in mm. -/
structure PackageMark where
  kind : MarkKind
  lane : LaneNo
  offset : Nat
  extent : Option Nat
  row : Option Nat
  junction : Option Nat
  deriving DecidableEq, Repr

/-- A package record (R148); lengths in mm. -/
structure Package where
  number : Nat
  kind : PackageKind
  lane : Option LaneNo
  slot : SlotNo
  lengths : List Nat
  rows : Option Nat
  flags : PackageFlags
  totals : Totals
  markList : List PackageMark
  deriving DecidableEq, Repr

/-- The cut and package unit: cut list (R141), deferred cuts in the order they fell due (R142), package
queue with the head first (R154), package number counter (R152). -/
structure CutUnit where
  list : List CutEntry
  deferred : List DeferredCut
  queue : List Package
  counter : Nat
  deriving DecidableEq, Repr

/-- The stop reasons (10_notices_stop_requests_and_output_lines.md R185). -/
inductive StopReason where
  | rowOverrun | cutLate | feed | laneFault
  deriving DecidableEq, Repr

/-- The stop reason set and the fault record (R185). -/
structure StopUnit where
  rowOverrun : Bool
  cutLate : Bool
  feed : Bool
  laneFault : Bool
  faultRecord : LaneSet
  deriving DecidableEq, Repr

/-- Forcing settings of a request line (R189). -/
inductive Forcing where
  | auto | low | high
  deriving DecidableEq, Repr

/-- The forcing of the three request lines (R189). -/
structure LineForcing where
  rowReq : Forcing
  cutReq : Forcing
  stopReq : Forcing
  deriving DecidableEq, Repr

/-- Notice kinds, in the bit order of R174. -/
inductive NoticeKind where
  | laneState | trim | rowDue | rowClosed | cutDue | package | stop | cal | recipe
  deriving DecidableEq, Repr

/-- The notice set of a port (R180): the kinds present, and a lane set for each of the nine kinds. -/
structure NoticeSet where
  present : KindSet
  lanes : Vector LaneSet 9
  deriving DecidableEq, Repr

/-- Phases of a port's open command (R163). -/
inductive Phase where
  | none | parameters | waiting | streaming | discarding
  deriving DecidableEq, Repr

/-- Result codes (R167). -/
inductive Result where
  | ok | role | state | range | inUse | conflict | notDue | late | order | empty | incomplete
  deriving DecidableEq, Repr

/-- Where an open field-wise command stands after its header: the record it writes and the field,
index or row that comes next (R6, R98, R100). -/
inductive FieldContext where
  | position (k : PosNo) (next : PositionField)
  | recipe (slot : SlotNo) (index : Nat)
  | pattern (slot : SlotNo) (row : Fin 32)
  deriving DecidableEq, Repr

/-- A byte held by a port whose step still waits (R163): whether it is a command byte, and the byte. -/
structure HeldByte where
  isCommand : Bool
  byte : Byte
  deriving DecidableEq, Repr

/-- A station port (09_station_ports.md, table at its head; R180, R182 for notices and interest).
`partialBits` holds the bits of the byte being assembled, first bit first; the bit count is its length.
`held`, `statusOf` and `lastOut` are implied by R163, R169 and R172 (assumption log 3, 21 and 23): `lastOut`
is the byte still being clocked out where another port's SOFT_RESET stopped a response within it. -/
structure Port where
  role : Role
  transferOpen : Bool
  partialBits : List Bool
  lastOut : Option Byte
  openCommand : Option Byte
  phase : Phase
  stepBytes : List Byte
  context : Option FieldContext
  response : List Byte
  respPtr : Nat
  lastCommand : Option Byte
  lastResult : Result
  clamped : Bool
  held : List HeldByte
  statusOf : Option Byte
  notices : NoticeSet
  interest : KindSet
  deriving DecidableEq, Repr

/-- The reference pairs of the quadrature decoders (R24, R32). -/
structure Inputs where
  wheels : Vector Pair 10
  draw : Pair
  deriving DecidableEq, Repr

end Sys2Proof.Machine
end

