-- ==== Sys2Proof/Machine/Reset.lean ====
section
/-! DEFINITION. The value of every record after power-on or hard reset (R22, R42, R96, R104, R112, R173,
R182 and the reset columns they name). -/

namespace Sys2Proof.Machine

/-- The coil plan after every reset (R137). -/
def CoilPlan.reset : CoilPlan := { state := .none, planPos := 0, reason := .normal }

/-- The counters after every reset (R2). -/
def Counters.zero : Counters := { windows := 0, high := 0, low := 0, splices := 0, slips := 0 }

/-- A lane record after power-on and hard reset, at the position given (R22). last_row_tally is none, as R22
lists it; R112 says in passing that it becomes 0 (DESIGN CHOICE, assumption log 27; unsafe). -/
def Lane.reset (position : Option PosNo) : Lane :=
  { state := .idle, position := position, tally := 0, coilStart := 0, slot := 0, pendingSlot := none,
    trim := 0, lastTpm := none, windowStart := 0, windowPulses := 0, capstanPulses := 0,
    periodIndex := 0, highCount := 0, lowCount := 0, limitStrike := false, slipRun := 0, pitchRun := 0,
    spliceStart := none, faultCause := none, counters := Counters.zero, marksLost := false,
    trimLimited := false, lastRowTally := none, plan := CoilPlan.reset }

/-- A position record after power-on and hard reset (01, "The position table"). -/
def Position.reset (mapped : Option LaneNo) : Position :=
  { inService := true, k := 100000, kLocked := false, cRef := 1256637, pc := 1, np := 4,
    mappedLane := mapped }

/-- A calibration record after every reset (R42, R53). -/
def CalRecord.reset : CalRecord :=
  { state := .idle, started := false, lane := none, n := none, calTol := none, edges := 0, nRun := 0,
    nA := none, nB := none, kA := none, kB := none, k := none, result := none, cause := none,
    stored := false }

/-- The default pattern: {0, 2, 4, 6}, {1, 3, 5}, then empty rows (06, "The recipe slot"). -/
def defaultPattern : Vector JunctionSet 32 :=
  ((Vector.replicate 32 (0 : JunctionSet)).set 0 0x55).set 1 0x2A

/-- The default of every field of a recipe slot (06, "The recipe slot", R96). -/
def Recipe.default : Recipe :=
  { targetTpm := 10000, tolPm := 20, windowMm := 2000, period := 8, twoStep := true, threshold := 2,
    trimMin := -32, trimMax := 31, trimStart := .mid, slipPm := 30, threadMm := 20000,
    spliceMaxMm := 3000, coilM := 220, minCoilM := 50, overlengthMm := 2000, maxSplices := 2,
    spliceClearMm := 1500, stopOnFault := false, netWidth := 8, pitch := 2500, allowance := 380,
    feedTol := 60, rowTimeout := 1250, leadInMm := 500, tailMm := 500, selvedgeRows := 2,
    selvedgeMask := 0x7F, panelRows := 200, patternLen := 2, pattern := defaultPattern }

/-- The empty mark store (R95). -/
def MarkStore.empty : MarkStore := { lists := Vector.replicate 8 [], nextMade := 0 }

/-- Line-level state after power-on and hard reset (R22, R32, R34, R104). -/
def Line.reset : Line :=
  { mode := .rope, drawTally := 0, dKnot := 0, dCut := 0, kDraw := 100000, lineSlot := 0,
    pendingLineSlot := none }

/-- The panel record after every reset (R112). -/
def Panel.reset : Panel :=
  { state := .none, netWidth := none, drawStart := 0, nextRow := 0, lastClosedRow := none,
    tailReached := false, halt := false, rowsKnotted := 0, rowsTimedOut := 0, rowsSkipped := 0 }

/-- The cut and package unit after power-on and hard reset (R159): counter 1 (R152). -/
def CutUnit.reset : CutUnit := { list := [], deferred := [], queue := [], counter := 1 }

/-- No stop reason and no recorded lane (R187). -/
def StopUnit.empty : StopUnit :=
  { rowOverrun := false, cutLate := false, feed := false, laneFault := false, faultRecord := 0 }

/-- Every request line in AUTO (R191). -/
def LineForcing.auto : LineForcing := { rowReq := .auto, cutReq := .auto, stopReq := .auto }

/-- The empty notice set (R184). -/
def NoticeSet.empty : NoticeSet := { present := 0, lanes := Vector.replicate 9 0 }

/-- The default interest of a role (R182). -/
def defaultInterest : Role → KindSet
  | .twist => 0x043
  | .knot => 0x045
  | .pack => 0x070
  | .supervise => 0x1FF

/-- A port after power-on and hard reset, in the role its straps give (R162, R173, R182, R184). -/
def Port.reset (role : Role) : Port :=
  { role := role, transferOpen := false, partialBits := [], lastOut := none, openCommand := none, phase := .none,
    stepBytes := [], context := none, response := [], respPtr := 0, lastCommand := none,
    lastResult := .ok, clamped := false, held := [], statusOf := none, notices := NoticeSet.empty,
    interest := defaultInterest role }

/-- The role that the straps of port n give, with ROLEn_A in bit 2n and ROLEn_B in bit 2n + 1 (R162). -/
def roleOfStraps (straps : Byte) (p : PortNo) : Role :=
  Role.ofStraps (straps.getLsbD (2 * p.val)) (straps.getLsbD (2 * p.val + 1))

/-- The four ports after power-on and hard reset. -/
def Ports.reset (straps : Byte) : Vector Port 4 :=
  #v[Port.reset (roleOfStraps straps 0), Port.reset (roleOfStraps straps 1),
     Port.reset (roleOfStraps straps 2), Port.reset (roleOfStraps straps 3)]

/-- The eight lanes after power-on and hard reset: lane i on position i (R8, R22). -/
def Lanes.reset : Vector Lane 8 :=
  #v[Lane.reset (some 0), Lane.reset (some 1), Lane.reset (some 2), Lane.reset (some 3),
     Lane.reset (some 4), Lane.reset (some 5), Lane.reset (some 6), Lane.reset (some 7)]

/-- The ten positions after power-on and hard reset: the identity map, 8 and 9 unmapped (R8, R22). -/
def Positions.reset : Vector Position 10 :=
  #v[Position.reset (some 0), Position.reset (some 1), Position.reset (some 2), Position.reset (some 3),
     Position.reset (some 4), Position.reset (some 5), Position.reset (some 6), Position.reset (some 7),
     Position.reset none, Position.reset none]

/-- The pair of two neighbouring levels found at a reset. -/
def pairAt (lines : BitVec 22) (i : Nat) : Pair := (lines.getLsbD i, lines.getLsbD (i + 1))

/-- The decoders' references after a reset: the levels they find (R24). -/
def Inputs.found (lines : BitVec 22) : Inputs :=
  { wheels := #v[pairAt lines 0, pairAt lines 2, pairAt lines 4, pairAt lines 6, pairAt lines 8,
                 pairAt lines 10, pairAt lines 12, pairAt lines 14, pairAt lines 16, pairAt lines 18],
    draw := pairAt lines 20 }

/-- The straps of `State.reset`: P0 TWIST, P1 KNOT, P2 PACK, P3 SUPERVISE. The manual leaves the strap
levels to the board. DESIGN CHOICE, assumption log 11; unsafe. -/
def bootStraps : Byte := 0xE4

/-- The quadrature levels that `State.reset` finds. DESIGN CHOICE, assumption log 10; unsafe. -/
def bootLines : BitVec 22 := 0

end Sys2Proof.Machine
end

