-- ==== Sys2Proof/Machine/State.lean ====
section
/-! DEFINITION. The state of the Palcord 8L4, its stop reasons for the host's interface, and the state right
after power-on or hard reset. -/

namespace Sys2Proof.Machine

/-- The state of the part. `freeTick` and `pending` are the model's own: the number of free values used so
far (assumption log 9), and the queue of commands not yet taken, front first (assumption log 1). -/
structure State where
  lanes : Vector Lane 8
  positions : Vector Position 10
  cals : Vector CalRecord 10
  recipes : Vector Recipe 4
  marks : MarkStore
  line : Line
  panel : Panel
  rows : List RowRecord
  cuts : CutUnit
  stops : StopUnit
  forcing : LineForcing
  ports : Vector Port 4
  turn : PortNo
  inputs : Inputs
  freeTick : Nat
  pending : List Instr
  deriving DecidableEq, Repr

/-- Faults of the model. The part has none that stops it: what it refuses it refuses with a result code
(R167), and a lane's FAULT is state (R18). No constructor. -/
inductive Fault where
  deriving DecidableEq, Repr

/-- Refusals of the model. -/
inductive Refusal where
  /-- Raised by an arm of `exec` whose command has no meaning yet; safe. No arm raises it. -/
  | notModelled (mnemonic : String)
  deriving DecidableEq, Repr

/-- The part right after power-on or hard reset (R22 and the reset rules of every chapter), with an empty
queue. -/
def State.reset : State :=
  { lanes := Lanes.reset
    positions := Positions.reset
    cals := Vector.replicate 10 CalRecord.reset
    recipes := Vector.replicate 4 Recipe.default
    marks := MarkStore.empty
    line := Line.reset
    panel := Panel.reset
    rows := []
    cuts := CutUnit.reset
    stops := StopUnit.empty
    forcing := LineForcing.auto
    ports := Ports.reset bootStraps
    turn := 3
    inputs := Inputs.found bootLines
    freeTick := 0
    pending := [] }

end Sys2Proof.Machine
end

