-- ==== Sys2Proof/Machine/Ops.lean ====
section
/-! DEFINITION. The named operations over the records: reading and writing a lane, a position, a calibration
record, a recipe slot, a port and a mark list; lane and junction sets; lengths and coordinates; the net
set; the free choices. -/

namespace Sys2Proof.Machine

/-! ### Records -/

/-- The record of a lane. -/
def State.lane (s : State) (l : LaneNo) : Lane := s.lanes[l]

/-- Replace the record of a lane. -/
def State.setLane (s : State) (l : LaneNo) (x : Lane) : State := { s with lanes := s.lanes.set l x }

/-- Change the record of a lane. -/
def State.modLane (s : State) (l : LaneNo) (f : Lane → Lane) : State := s.setLane l (f (s.lane l))

/-- The record of a position. -/
def State.position (s : State) (k : PosNo) : Position := s.positions[k]

/-- Change the record of a position. -/
def State.modPosition (s : State) (k : PosNo) (f : Position → Position) : State :=
  { s with positions := s.positions.set k (f s.positions[k]) }

/-- The calibration record of a position. -/
def State.cal (s : State) (k : PosNo) : CalRecord := s.cals[k]

/-- Change the calibration record of a position. -/
def State.modCal (s : State) (k : PosNo) (f : CalRecord → CalRecord) : State :=
  { s with cals := s.cals.set k (f s.cals[k]) }

/-- A recipe slot. -/
def State.recipe (s : State) (i : SlotNo) : Recipe := s.recipes[i]

/-- Replace a recipe slot. -/
def State.setRecipe (s : State) (i : SlotNo) (r : Recipe) : State :=
  { s with recipes := s.recipes.set i r }

/-- The record of a port. -/
def State.port (s : State) (p : PortNo) : Port := s.ports[p]

/-- Change the record of a port. -/
def State.modPort (s : State) (p : PortNo) (f : Port → Port) : State :=
  { s with ports := s.ports.set p (f s.ports[p]) }

/-- Change the record of every port. -/
def State.mapPorts (s : State) (f : Port → Port) : State :=
  { s with ports := #v[f s.ports[0], f s.ports[1], f s.ports[2], f s.ports[3]] }

/-- Change the record of every lane. -/
def State.mapLanes (s : State) (f : Lane → Lane) : State :=
  { s with lanes := #v[f s.lanes[0], f s.lanes[1], f s.lanes[2], f s.lanes[3],
                       f s.lanes[4], f s.lanes[5], f s.lanes[6], f s.lanes[7]] }

/-- The mark list of a lane (R80). -/
def State.markList (s : State) (l : LaneNo) : List Mark := s.marks.lists[l]

/-- Replace the mark list of a lane. -/
def State.setMarkList (s : State) (l : LaneNo) (ms : List Mark) : State :=
  { s with marks := { s.marks with lists := s.marks.lists.set l ms } }

/-! ### Sets of lanes and junctions -/

/-- Lanes 0 to 7 in ascending order. -/
def allLanes : List LaneNo := [0, 1, 2, 3, 4, 5, 6, 7]

/-- Positions 0 to 9 in ascending order. -/
def allPositions : List PosNo := [0, 1, 2, 3, 4, 5, 6, 7, 8, 9]

/-- Whether a lane is in a lane set. -/
def laneIn (ls : LaneSet) (l : LaneNo) : Bool := ls.getLsbD l.val

/-- The lane set of one lane. -/
def laneBit (l : LaneNo) : LaneSet := 1#8 <<< l.val

/-- The lanes of a set, in ascending order. -/
def lanesOf (ls : LaneSet) : List LaneNo := allLanes.filter (laneIn ls)

/-- The lane set of a list of lanes. -/
def laneSetOf (ls : List LaneNo) : LaneSet := ls.foldl (fun a l => a ||| laneBit l) 0

/-- The lane set 0 to w - 1. -/
def lanesBelow (w : Nat) : LaneSet := BitVec.ofNat 8 (2 ^ w - 1)

/-- Whether a junction is in a junction set. -/
def junctionIn (js : JunctionSet) (j : Nat) : Bool := js.getLsbD j

/-- The junctions of a set, in ascending order. -/
def junctionsOf (js : JunctionSet) : List Nat := [0, 1, 2, 3, 4, 5, 6].filter (junctionIn js)

/-- The junctions in a net of width w: 0 to w - 2 (R113). -/
def junctionsInNet (w : Nat) : JunctionSet := BitVec.ofNat 7 (2 ^ (w - 1) - 1)

/-- The lower-numbered lane of a junction (R79): lane j for junction j. -/
def laneOfJunction (j : Nat) : LaneNo := Fin.ofNat 8 j

/-- A lane number carried in a byte, or none outside 0 to 7. -/
def laneNo (b : Byte) : Option LaneNo := if h : b.toNat < 8 then some ⟨b.toNat, h⟩ else none

/-- A position number carried in a byte, or none outside 0 to 9. -/
def posNo (b : Byte) : Option PosNo := if h : b.toNat < 10 then some ⟨b.toNat, h⟩ else none

/-- A slot number carried in a byte, or none outside 0 to 3. -/
def slotNo (b : Byte) : Option SlotNo := if h : b.toNat < 4 then some ⟨b.toNat, h⟩ else none

/-! ### Lengths and coordinates -/

/-- The greatest tally, 256 x 10^12 in 1/256 micrometres (R26, R32). -/
def tallyCeiling : Nat := 256 * 10 ^ 12

/-- The tally of a lane in micrometres (R26). -/
def Lane.um (x : Lane) : Nat := x.tally / 256

/-- The draw coordinate in micrometres (R32). -/
def State.drawUm (s : State) : Nat := s.line.drawTally / 256

/-- The cutter coordinate of a lane, floored at 0 (R36). -/
def State.cutterCoord (s : State) (l : LaneNo) : Nat := (s.lane l).um - s.line.dCut * 1000

/-- The knotter coordinate of a tally in micrometres, floored at 0 (R36, R120). -/
def State.knotterOf (s : State) (um : Nat) : Nat := um - s.line.dKnot * 1000

/-- Clamp a number into a range (00_scope.md, "Arithmetic"). -/
def clampNat (lo hi v : Nat) : Nat := max lo (min hi v)

/-- Clamp a signed number into a range. -/
def clampInt (lo hi v : Int) : Int := max lo (min hi v)

/-! ### Recipes, panel and net set -/

/-- The recipe of a lane's active slot. -/
def State.activeRecipe (s : State) (l : LaneNo) : Recipe := s.recipe (s.lane l).slot

/-- The recipe of the line slot (R104). -/
def State.lineRecipe (s : State) : Recipe := s.recipe s.line.lineSlot

/-- A panel is open while its record is in LAYING, FINISHING or CUT_WAIT (R112). -/
def State.panelOpen (s : State) : Bool := s.panel.state != .none

/-- The net set: lanes 0 to net_width - 1 of the line slot (R5). -/
def State.netSet (s : State) : LaneSet := lanesBelow s.lineRecipe.netWidth

/-- Every lane is IDLE. -/
def State.allIdle (s : State) : Bool := allLanes.all fun l => (s.lane l).state == .idle

/-- The lane states in which wheel counts move the tally (R1, R10). -/
def LaneState.counts : LaneState → Bool
  | .idle => false
  | .threading | .run | .splicing | .fault | .stopping => true

/-- The lane states RUN, SPLICING and FAULT: normal cut planning, and the lanes of a panel (R1, R30, R117). -/
def LaneState.running : LaneState → Bool
  | .run | .splicing | .fault => true
  | .idle | .threading | .stopping => false

/-! ### Running over lists of lanes, and free choices -/

/-- Do something for each lane of a list, in the order of the list. -/
def forLanes (ls : List LaneNo) (f : LaneNo → State → State) (s : State) : State :=
  ls.foldl (fun t l => f l t) s

/-- Take a free choice between two orders (assumption log 5, 6, 9, 15). -/
def State.freeOrder (s : State) : Bool := Config.freeOrder s.freeTick

/-- Note that free values have been used. -/
def State.useFree (s : State) (n : Nat) : State := { s with freeTick := s.freeTick + n }

end Sys2Proof.Machine
end

