-- ==== Sys2Proof/Machine/Flags.lean ====
section
/-! DEFINITION. Notices and attention lines, stop reasons, and the request lines
(10_notices_stop_requests_and_output_lines.md). -/

namespace Sys2Proof.Machine

/-- The bit of a notice kind (R174). -/
def NoticeKind.index : NoticeKind → Fin 9
  | .laneState => 0 | .trim => 1 | .rowDue => 2 | .rowClosed => 3 | .cutDue => 4
  | .package => 5 | .stop => 6 | .cal => 7 | .recipe => 8

/-- The kind set of one kind. -/
def NoticeKind.bit (k : NoticeKind) : KindSet := 1#9 <<< k.index.val

/-- Whether a kind is present in a notice set. -/
def NoticeSet.has (n : NoticeSet) (k : NoticeKind) : Bool := n.present.getLsbD k.index.val

/-- The lane set a notice set holds for a kind. -/
def NoticeSet.lanesFor (n : NoticeSet) (k : NoticeKind) : LaneSet := n.lanes[k.index]

/-- A raising in one notice set: the kind becomes present, its lane set the union (R180). -/
def NoticeSet.add (n : NoticeSet) (k : NoticeKind) (ls : LaneSet) : NoticeSet :=
  { present := n.present ||| k.bit, lanes := n.lanes.set k.index (n.lanes[k.index] ||| ls) }

/-- A raising in one port's set. -/
def Port.notify (k : NoticeKind) (ls : LaneSet) (P : Port) : Port :=
  { P with notices := P.notices.add k ls }

/-- A notice is raised in the notice set of every port (R180). -/
def State.raise (k : NoticeKind) (ls : LaneSet) (s : State) : State := s.mapPorts (Port.notify k ls)

/-- The attention line of a port is asserted while its set holds a kind of interest (R183). -/
def State.attention (s : State) (p : PortNo) : Bool :=
  (s.port p).notices.present &&& (s.port p).interest != 0

/-- A stop reason is made present; LANE_FAULT records its lane (R185). -/
def StopUnit.add (u : StopUnit) (r : StopReason) (ls : LaneSet) : StopUnit :=
  match r with
  | .rowOverrun => { u with rowOverrun := true }
  | .cutLate => { u with cutLate := true }
  | .feed => { u with feed := true }
  | .laneFault => { u with laneFault := true, faultRecord := u.faultRecord ||| ls }

/-- A request to raise a stop reason: it becomes present, and STOP is raised with the lanes (R185). -/
def State.requestStop (r : StopReason) (ls : LaneSet) (s : State) : State :=
  State.raise .stop ls { s with stops := s.stops.add r ls }

/-- The stop reason set is not empty. -/
def StopUnit.any (u : StopUnit) : Bool := u.rowOverrun || u.cutLate || u.feed || u.laneFault

/-- The stop reason set in the encoding of R174. -/
def StopUnit.bits (u : StopUnit) : Byte :=
  (BitVec.ofBool u.laneFault ++ BitVec.ofBool u.feed ++ BitVec.ofBool u.cutLate
    ++ BitVec.ofBool u.rowOverrun).setWidth 8

/-- An entry of the cut list is REQUESTED. -/
def CutEntry.isRequested (e : CutEntry) : Bool := e.state == .requested

/-- The level of a request line: its state in AUTO, else the forced level (R189). -/
def Forcing.level (f : Forcing) (asserted : Bool) : Bool :=
  match f with
  | .auto => asserted
  | .low => false
  | .high => true

/-- The level of the pin ROWREQ: the row list is not empty (R189). -/
def State.rowReq (s : State) : Bool := s.forcing.rowReq.level (!s.rows.isEmpty)

/-- The level of the pin CUTREQ: some entry is REQUESTED (R189). -/
def State.cutReq (s : State) : Bool := s.forcing.cutReq.level (s.cuts.list.any CutEntry.isRequested)

/-- The level of the pin STOPREQ: the stop reason set is not empty (R189). -/
def State.stopReq (s : State) : Bool := s.forcing.stopReq.level s.stops.any

end Sys2Proof.Machine
end

