-- ==== Sys2Proof/Machine/Operands.lean ====
section
/-! DEFINITION. The operand forms: numbers in bytes, most significant byte first (R174); the clamps of the
recipe fields (R97, R176), of SET_POSITION (R6), SET_GEOMETRY (R34) and SET_FACTOR (R37); junction sets
(R177); and the outcome of a served step. -/

namespace Sys2Proof.Machine

/-- The number that bytes carry, most significant byte first (R174). -/
def beNat (bs : List Byte) : Nat := bs.foldl (fun a b => a * 256 + b.toNat) 0

/-- A number in n bytes, most significant byte first. -/
def beBytes : Nat → Nat → List Byte
  | 0, _ => []
  | n + 1, v => BitVec.ofNat 8 (v / 256 ^ n) :: beBytes n v

/-- The byte at a place of a step; 0 beyond the step's bytes. -/
def byteAt (bs : List Byte) (i : Nat) : Byte := bs.getD i 0

/-- The number in the n bytes from a place on. -/
def beAt (bs : List Byte) (i n : Nat) : Nat := beNat ((bs.drop i).take n)

/-- The outcome of a served step (R167): its result, whether it clamped a value, and the state with its
effects on every record but the port's own result. -/
structure Served where
  result : Result
  clamped : Bool
  state : State
  deriving DecidableEq, Repr

/-- A refused or answered step: it changes nothing. -/
def refuse (r : Result) (s : State) : Served := { result := r, clamped := false, state := s }

/-- An accepted step without a clamp. -/
def accept (s : State) : Served := { result := .ok, clamped := false, state := s }

/-! ### Junction sets -/

/-- The junction set of a byte's seven junction places (R177). -/
def junctionsOfByte (b : Byte) : JunctionSet := b.setWidth 7

/-- A byte marks a place outside the seven junctions (R177). -/
def marksOther (b : Byte) : Bool := b.getLsbD 7

/-! ### Recipe fields -/

/-- The range of a recipe field and whether it is signed (06, "The recipe slot"; R97, R176). The junction
set of field 26 has no range: its bit 7 is dropped instead. -/
structure FieldRange where
  lo : Int
  hi : Int
  signed : Bool
  deriving DecidableEq, Repr

/-- An unsigned field's range. -/
def unsignedField (lo hi : Nat) : FieldRange := { lo := lo, hi := hi, signed := false }

/-- The ranges of fields 0 to 28, in the order of their indices. -/
def recipeRanges : List FieldRange :=
  [unsignedField 100 60000, unsignedField 1 200, unsignedField 100 100000, unsignedField 1 16,
   unsignedField 0 1, unsignedField 1 16, ⟨-64, 63, true⟩, ⟨-64, 63, true⟩, unsignedField 0 1,
   unsignedField 1 500, unsignedField 0 1000000, unsignedField 1 50000, unsignedField 1 20000,
   unsignedField 1 20000, unsignedField 0 100000, unsignedField 0 15, unsignedField 0 10000,
   unsignedField 0 1, unsignedField 2 8, unsignedField 100 50000, unsignedField 0 5000,
   unsignedField 1 5000, unsignedField 1 50000, unsignedField 0 10000, unsignedField 0 10000,
   unsignedField 0 8, unsignedField 0 127, unsignedField 1 4096, unsignedField 1 32]

/-- The range of the field of an index. -/
def recipeRange (index : Nat) : FieldRange := recipeRanges.getD index (unsignedField 0 0)

/-- The value that the bytes of a field carry: two's complement in one byte for trim_min and trim_max,
unsigned otherwise (R97, R176). -/
def rawFieldValue (index : Nat) (bs : List Byte) : Int :=
  if (recipeRange index).signed then (byteAt bs 0).toInt else (beNat bs : Int)

/-- The value stored for a delivered one: clamped into the range; for selvedge_mask the seven junction
places (R97). -/
def storedFieldValue (index : Nat) (v : Int) : Int :=
  if index = 26 then v % 128 else clampInt (recipeRange index).lo (recipeRange index).hi v

/-- Store a value in the field of an index (06, "The recipe slot"). -/
def Recipe.withField (r : Recipe) (index : Nat) (v : Int) : Recipe :=
  match index with
  | 0 => { r with targetTpm := v.toNat }
  | 1 => { r with tolPm := v.toNat }
  | 2 => { r with windowMm := v.toNat }
  | 3 => { r with period := v.toNat }
  | 4 => { r with twoStep := v != 0 }
  | 5 => { r with threshold := v.toNat }
  | 6 => { r with trimMin := v }
  | 7 => { r with trimMax := v }
  | 8 => { r with trimStart := if v = 0 then .mid else .keep }
  | 9 => { r with slipPm := v.toNat }
  | 10 => { r with threadMm := v.toNat }
  | 11 => { r with spliceMaxMm := v.toNat }
  | 12 => { r with coilM := v.toNat }
  | 13 => { r with minCoilM := v.toNat }
  | 14 => { r with overlengthMm := v.toNat }
  | 15 => { r with maxSplices := v.toNat }
  | 16 => { r with spliceClearMm := v.toNat }
  | 17 => { r with stopOnFault := v != 0 }
  | 18 => { r with netWidth := v.toNat }
  | 19 => { r with pitch := v.toNat }
  | 20 => { r with allowance := v.toNat }
  | 21 => { r with feedTol := v.toNat }
  | 22 => { r with rowTimeout := v.toNat }
  | 23 => { r with leadInMm := v.toNat }
  | 24 => { r with tailMm := v.toNat }
  | 25 => { r with selvedgeRows := v.toNat }
  | 26 => { r with selvedgeMask := BitVec.ofInt 7 v }
  | 27 => { r with panelRows := v.toNat }
  | 28 => { r with patternLen := v.toNat }
  | _ => r

/-! ### Fields of a position -/

/-- The field of SET_POSITION after a field; none after Np (R6). -/
def nextPositionField : PositionField → Option PositionField
  | .inService => some .cRef
  | .cRef => some .pc
  | .pc => some .np
  | .np => none

/-- The value stored for a delivered value of C_ref, Pc or Np; in_service stores yes for any value but 0
(R6). -/
def storedPositionValue (field : PositionField) (v : Nat) : Nat :=
  match field with
  | .inService => v
  | .cRef => clampNat 100000 10000000 v
  | .pc => clampNat 1 64 v
  | .np => clampNat 1 16 v

/-- Store a value in a field of a position record. -/
def Position.withField (x : Position) (field : PositionField) (v : Nat) : Position :=
  match field with
  | .inService => { x with inService := v != 0 }
  | .cRef => { x with cRef := v }
  | .pc => { x with pc := v }
  | .np => { x with np := v }

/-- A wheel factor clamped into its range (R34, R37). -/
def clampFactor (v : Nat) : Nat := clampNat 12800 512000 v

/-- A distance of the geometry clamped into its range (R34). -/
def clampDistance (v : Nat) : Nat := clampNat 0 100000 v

end Sys2Proof.Machine
end

