-- ==== Sys2Proof/Machine/Marks.lean ====
section
/-! DEFINITION. The mark store (05_the_mark_store.md): insertion with its guard, the full pool, changes in
place, and the sorting of a lane's marks at a cut. -/

namespace Sys2Proof.Machine

/-- The pool's size (R80). -/
def markPoolSize : Nat := 96

/-- The marks held in all lists (R80). -/
def State.marksHeld (s : State) : Nat := (allLanes.map fun l => (s.markList l).length).sum

/-- The free entries of the pool (R80). -/
def State.freeEntries (s : State) : Nat := markPoolSize - s.marksHeld

/-- The end of a mark: position + extent, or its position without an extent (R78). -/
def Mark.endPos (m : Mark) : Nat := m.position + m.extent.getD 0

/-- An open SPLICE mark: one without an extent (R78). -/
def Mark.isOpenSplice (m : Mark) : Bool := m.kind == .splice && m.extent.isNone

/-- A mark joins a list after every mark at or behind its position and before every mark beyond (R81). -/
def insertMark (m : Mark) : List Mark → List Mark
  | [] => [m]
  | x :: xs => if x.position ≤ m.position then x :: insertMark m xs else m :: x :: xs

/-- The position guard: a mark behind coil_start is raised to it, its extent reduced and floored at 0
(R82). -/
def guardMark (coilStart : Nat) (m : Mark) : Mark :=
  if m.position < coilStart then
    { m with position := coilStart, extent := m.extent.map (· - (coilStart - m.position)) }
  else m

/-- A mark handed to the store is stored in its lane's list, taking a free entry and its place in the
order of making (R81, R82, R86), or is lost with the lane's marks_lost set when no entry is free (R83). -/
def handMark (m : Mark) (s : State) : State :=
  if s.freeEntries = 0 then
    s.modLane m.lane fun x => { x with marksLost := true }
  else
    let stored := { guardMark (s.lane m.lane).coilStart m with made := s.marks.nextMade }
    let t := s.setMarkList m.lane (insertMark stored (s.markList m.lane))
    { t with marks := { t.marks with nextMade := s.marks.nextMade + 1 } }

/-- Marks in an order given by free picks: at each place any of those left (assumption log 7). -/
def pickOrder (tick : Nat) : Nat → List Mark → List Mark
  | 0, _ => []
  | n + 1, ms =>
    match ms[Config.freePick (tick + n) % ms.length]? with
    | none => []
    | some m => m :: pickOrder tick n (ms.eraseIdx (Config.freePick (tick + n) % ms.length))

/-- Marks handed at one event. While the pool has an entry for each, no order can be told; when it has
not, which of them are lost is open (R83), and the order is free (assumption log 7). -/
def handMarks (ms : List Mark) (s : State) : State :=
  if ms.length ≤ s.freeEntries then
    ms.foldl (fun t m => handMark m t) s
  else
    (pickOrder s.freeTick ms.length ms).foldl (fun t m => handMark m t) (s.useFree ms.length)

/-- The index and the mark of the newest zone of a list: the TWIST_ZONE with the greatest end, and of
those the one made last (R61, R86). -/
def newestZoneFrom : List Mark → Nat → Option (Nat × Mark) → Option (Nat × Mark)
  | [], _, best => best
  | m :: ms, i, best =>
    let better := m.kind == .twistZone &&
      match best with
      | none => true
      | some (_, b) => decide (b.endPos < m.endPos) || (b.endPos == m.endPos && decide (b.made < m.made))
    newestZoneFrom ms (i + 1) (if better then some (i, m) else best)

/-- The newest zone of a list (R61). -/
def newestZone (ms : List Mark) : Option (Nat × Mark) := newestZoneFrom ms 0 none

/-- A zone extended by a window: its extent grows, and its sense becomes BOTH when it differs from the
window's (R61, R84). -/
def extendZone (lw : Nat) (sense : Sense) (m : Mark) : Mark :=
  { m with
    extent := some (m.extent.getD 0 + lw)
    sense := if m.sense = some sense then m.sense else some .both }

/-- The open SPLICE mark of a list is closed with an extent (R72, R84). -/
def closeSpliceIn (extent : Nat) (ms : List Mark) : List Mark :=
  ms.map fun m => if m.isOpenSplice then { m with extent := some extent } else m

/-- What goes out of a mark at a cut position (R88, R89), the cut not being an END cut. -/
def outAtCut (cut : Nat) (m : Mark) : Option Mark :=
  if cut ≤ m.position then none
  else if m.isOpenSplice then some m
  else if m.extent.isSome && decide (cut < m.endPos) then some { m with extent := some (cut - m.position) }
  else some m

/-- What stays of a mark at a cut position (R88, R89), the cut not being an END cut. -/
def stayAtCut (cut : Nat) (m : Mark) : Option Mark :=
  if cut ≤ m.position then some m
  else if m.isOpenSplice then some { m with position := cut }
  else if m.extent.isSome && decide (cut < m.endPos) then
    some { m with position := cut, extent := some (m.endPos - cut) }
  else none

/-- The marks of a list that go out at a cut, in list order: every mark at an END cut (R90), else as R88
sorts them. -/
def marksOut (isEnd : Bool) (cut : Nat) (ms : List Mark) : List Mark :=
  if isEnd then ms else ms.filterMap (outAtCut cut)

/-- The marks of a list that stay at a cut (R87, R88, R90). -/
def marksStay (isEnd : Bool) (cut : Nat) (ms : List Mark) : List Mark :=
  if isEnd then [] else ms.filterMap (stayAtCut cut)

end Sys2Proof.Machine
end

