-- ==== Sys2Proof/Machine/CutPlan.lean ====
section
/-! DEFINITION. The coil plan, the cut list and places in the package queue, deferral, and late cuts
(08_cuts_and_packages.md R137 to R144). -/

namespace Sys2Proof.Machine

/-! ### Entries and places -/

/-- The lanes of a cut: the lane of a coil, or the panel's lanes (R143, R185). -/
def CutWhat.lanes : CutWhat → LaneSet
  | .coil l _ => laneBit l
  | .panel ls => ls

/-- A cut is a COIL cut. -/
def CutWhat.isCoil : CutWhat → Bool
  | .coil _ _ => true
  | .panel _ => false

/-- A cut is the COIL cut of a lane. -/
def CutWhat.isCoilOf (l : LaneNo) : CutWhat → Bool
  | .coil m _ => m == l
  | .panel _ => false

/-- Change the cut and package unit. -/
def State.modCuts (s : State) (f : CutUnit → CutUnit) : State := { s with cuts := f s.cuts }

/-- The number of REQUESTED entries (R143). -/
def CutUnit.requested (u : CutUnit) : Nat := (u.list.filter CutEntry.isRequested).length

/-- The free places of the package queue: 8 less packages less REQUESTED entries (R143). -/
def CutUnit.freePlaces (u : CutUnit) : Nat := 8 - u.queue.length - u.requested

/-- The list holds an entry of the other kind (R142). -/
def CutUnit.holdsOther (u : CutUnit) (w : CutWhat) : Bool :=
  u.list.any fun e => e.what.isCoil != w.isCoil

/-! ### Lateness -/

/-- A due cut is late (R144): its cutting point lies past its due position by more than the overlength
allowance of the lane's active slot, or of the line slot for a panel. -/
def cutIsLate (s : State) (w : CutWhat) (due : Nat) : Bool :=
  match w with
  | .coil l _ => decide (due + (s.activeRecipe l).overlengthMm * 1000 < s.cutterCoord l)
  | .panel _ => decide (due + s.lineRecipe.overlengthMm * 1000 < s.drawUm)

/-- The stop reason CUT_LATE is requested for a cut that becomes late (R144, R185). -/
def requestIfLate (late : Bool) (w : CutWhat) (s : State) : State :=
  if late then s.requestStop .cutLate w.lanes else s

/-- The late field of an entry chosen by `sel` follows the test (R144). -/
def CutEntry.retest (s : State) (sel : CutWhat → Bool) (e : CutEntry) : CutEntry :=
  if sel e.what then { e with late := cutIsLate s e.what e.duePos } else e

/-- The late field of a deferred cut chosen by `sel` follows the test (R144). -/
def DeferredCut.retest (s : State) (sel : CutWhat → Bool) (d : DeferredCut) : DeferredCut :=
  if sel d.what then { d with late := cutIsLate s d.what d.duePos } else d

/-- The due cuts of the unit with their due position and late field: entries, then deferred cuts. -/
def CutUnit.dueCuts (u : CutUnit) : List DeferredCut :=
  u.list.map (fun e => { what := e.what, duePos := e.duePos, late := e.late }) ++ u.deferred

/-- The due cuts chosen by `sel` that the test finds late and that were not (R144). -/
def newlyLate (s : State) (sel : CutWhat → Bool) : List DeferredCut :=
  s.cuts.dueCuts.filter fun d => sel d.what && !d.late && cutIsLate s d.what d.duePos

/-- The late fields chosen by `sel` follow the test, without a request. -/
def setLate (sel : CutWhat → Bool) (s : State) : State :=
  s.modCuts fun u =>
    { u with list := u.list.map (CutEntry.retest s sel), deferred := u.deferred.map (DeferredCut.retest s sel) }

/-- The late test after a count (R144, R30, R33): the late fields of the cuts chosen by `sel` follow the
test, and CUT_LATE is requested for each that becomes late. -/
def retestLate (sel : CutWhat → Bool) (s : State) : State :=
  (newlyLate s sel).foldl (fun t d => t.requestStop .cutLate d.what.lanes) (setLate sel s)

/-! ### Joining the list -/

/-- A cut joins the list at its tail (R143): REQUESTED with CUT_DUE when a place is free, HELD otherwise. -/
def joinCut (w : CutWhat) (due : Nat) (late : Bool) (s : State) : State :=
  if s.cuts.freePlaces = 0 then
    s.modCuts fun u => { u with list := u.list ++ [{ what := w, duePos := due, state := .held, late := late }] }
  else
    State.raise .cutDue w.lanes
      (s.modCuts fun u =>
        { u with list := u.list ++ [{ what := w, duePos := due, state := .requested, late := late }] })

/-- A cut falls due (R142, R144): it joins the list, or is deferred while the list holds an entry of the
other kind; it may be late from that moment. -/
def cutFallsDue (w : CutWhat) (due : Nat) (s : State) : State :=
  let late := cutIsLate s w due
  requestIfLate late w
    (if s.cuts.holdsOther w then
      s.modCuts fun u => { u with deferred := u.deferred ++ [{ what := w, duePos := due, late := late }] }
    else joinCut w due late s)

/-- The reason of a plan that was DEFERRED_END and becomes NONE: NORMAL or SHORT, as R137 allows a NONE plan;
the manual does not say which. FREE VALUE, assumption log 15; safe. -/
def State.freeReason (s : State) : CutReason := if s.freeOrder then .short else .normal

/-- The plan of a lane whose deferred END cut joins becomes NONE (R137, R142). -/
def leaveDeferredEnd (l : LaneNo) (s : State) : State :=
  (s.useFree 1).modLane l fun x => { x with plan := { x.plan with state := .none, reason := s.freeReason } }

/-- A deferred cut joins when no entry of the other kind is left, and stays deferred otherwise; the plan
of a lane whose END cut joins becomes NONE (R142). -/
def joinDeferredCut (d : DeferredCut) (s : State) : State :=
  if s.cuts.holdsOther d.what then
    s.modCuts fun u => { u with deferred := u.deferred ++ [d] }
  else
    let t := joinCut d.what d.duePos d.late s
    match d.what with
    | .coil l .endCut => leaveDeferredEnd l t
    | .coil _ .normal | .coil _ .short | .panel _ => t

/-- The deferred cuts are tried in the order in which they fell due (R142). -/
def joinDeferred (s : State) : State :=
  s.cuts.deferred.foldl (fun t d => joinDeferredCut d t) (s.modCuts fun u => { u with deferred := [] })

/-- The oldest HELD entry of a list becomes REQUESTED (R143). -/
def promoteFirst : List CutEntry → List CutEntry
  | [] => []
  | e :: es => if e.state = .held then { e with state := .requested } :: es else e :: promoteFirst es

/-- A freed place makes the oldest HELD entry REQUESTED, with CUT_DUE (R143, R157). -/
def promoteHeld (s : State) : State :=
  match s.cuts.list.find? fun e => e.state == .held with
  | none => s
  | some e => State.raise .cutDue e.what.lanes (s.modCuts fun u => { u with list := promoteFirst u.list })

/-! ### The coil cut -/

/-- The test of R138 and R30: the plan is WATCHING and the cutter coordinate is at or past plan_pos. -/
def coilCutMet (l : LaneNo) (s : State) : Bool :=
  (s.lane l).plan.state == .watching && (s.lane l).state.running && s.line.mode == .rope &&
    decide ((s.lane l).plan.planPos ≤ s.cutterCoord l)

/-- The coil cut of a lane falls due (R138). -/
def coilCutDue (l : LaneNo) (s : State) : State :=
  let plan := (s.lane l).plan
  cutFallsDue (.coil l plan.reason) plan.planPos
    (s.modLane l fun x => { x with plan := { x.plan with state := .due } })

/-- The coil cut falls due if its test is met. -/
def coilCutDueIfMet (l : LaneNo) (s : State) : State := if coilCutMet l s then coilCutDue l s else s

/-- A fresh WATCHING plan: coil_start + coil_m x 10^6, NORMAL (R137, R153). -/
def freshPlan (l : LaneNo) (s : State) : State :=
  s.modLane l fun x =>
    { x with plan := { state := .watching, planPos := x.coilStart + (s.activeRecipe l).coilM * 1000000,
                       reason := .normal } }

/-- The SPLICE marks in a lane's list (R139). -/
def spliceCount (s : State) (l : LaneNo) : Nat :=
  ((s.markList l).filter fun m => m.kind == .splice).length

/-- The short-coil test at a SPLICE mark stored at `pos` on a WATCHING lane (R139): the plan moves to the
candidate when it breaks no limit, and the cut falls due at once when the cutter is already there. -/
def shortCoilTest (l : LaneNo) (pos : Nat) (s : State) : State :=
  let r := s.activeRecipe l
  let x := s.lane l
  let candidate : Int := (pos : Int) - (r.spliceClearMm * 1000 : Nat)
  if x.plan.state = .watching ∧ r.maxSplices < spliceCount s l
      ∧ (r.minCoilM * 1000000 : Nat) ≤ candidate - (x.coilStart : Int) ∧ candidate < (x.plan.planPos : Int) then
    coilCutDueIfMet l
      (s.modLane l fun y => { y with plan := { y.plan with planPos := candidate.toNat, reason := .short } })
  else s

/-! ### The END cut -/

/-- The END conversion of a lane's COIL entry (R140). -/
def convertToEnd (l : LaneNo) (e : CutEntry) : CutEntry :=
  if e.what.isCoilOf l then { e with what := .coil l .endCut } else e

/-- The END cut of a lane whose coil cut is already due: its entry becomes the END cut, CUT_DUE is raised
again for a REQUESTED one, and a cut that is late as it falls due asks for CUT_LATE (R140, R144). -/
def endCutConverts (l : LaneNo) (s : State) : State :=
  let requested := s.cuts.list.any fun e => e.what.isCoilOf l && e.isRequested
  let late := s.cuts.list.any fun e => e.what.isCoilOf l && cutIsLate s e.what e.duePos
  let s1 := s.modCuts fun u => { u with list := u.list.map (convertToEnd l) }
  let s2 := s1.modLane l fun x => { x with plan := { x.plan with state := .none } }
  let s3 := if requested then State.raise .cutDue (laneBit l) s2 else s2
  requestIfLate late (.coil l .endCut) (setLate (CutWhat.isCoilOf l) s3)

/-- The plan of a lane whose END cut falls due anew: NONE when the cut joins the list, DEFERRED_END with
its due position when it is deferred (R140). -/
def endPlan (deferred : Bool) (due : Nat) (x : Lane) : Lane :=
  if deferred then { x with plan := { state := .deferredEnd, planPos := due, reason := .endCut } }
  else { x with plan := { x.plan with state := .none } }

/-- The END cut of a lane falls due at an accepted STOP_LANE (R140). -/
def endCutDue (l : LaneNo) (s : State) : State :=
  if (s.lane l).plan.state = .due then endCutConverts l s
  else
    let due := s.cutterCoord l
    let deferred := s.cuts.holdsOther (.coil l .endCut)
    cutFallsDue (.coil l .endCut) due (s.modLane l (endPlan deferred due))

/-! ### CUT_LATE as an event of its own -/

/-- Which due cuts a cut name names. -/
def cutNameSelects : CutName → CutWhat → Bool
  | .lane l, w => w.isCoilOf l
  | .panel, w => !w.isCoil

/-- A due cut that has run past its limit becomes late and asks for CUT_LATE; one that is not past it, or
that is late already, is left as it is (R144). -/
def cutLateIfMet (c : CutName) (s : State) : State :=
  let isNew (w : CutWhat) (due : Nat) (late : Bool) : Bool := cutNameSelects c w && !late && cutIsLate s w due
  (newlyLate s (cutNameSelects c)).foldl (fun t d => t.requestStop .cutLate d.what.lanes)
    (s.modCuts fun u =>
      { u with
        list := u.list.map fun e => if isNew e.what e.duePos e.late then { e with late := true } else e
        deferred := u.deferred.map fun d => if isNew d.what d.duePos d.late then { d with late := true } else d })

end Sys2Proof.Machine
end

