-- ==== Sys2Proof/Machine/Knots.lean ====
section
/-! DEFINITION. The knot scheduler (07_knotting_schedule.md): panels, rows on the draw, the feed check, the
row list, knot confirmation, row timeout, the panel's end. -/

namespace Sys2Proof.Machine

/-- Change the panel record. -/
def State.modPanel (s : State) (f : Panel → Panel) : State := { s with panel := f s.panel }

/-- The width of the panel's net; 0 where the record holds none. -/
def State.panelWidth (s : State) : Nat := s.panel.netWidth.getD 0

/-- The lanes of the panel (R113). -/
def State.panelLanes (s : State) : LaneSet := lanesBelow s.panelWidth

/-- The due position of a row (R118). -/
def rowDue (s : State) (r : Nat) : Nat :=
  s.panel.drawStart + s.lineRecipe.leadInMm * 1000 + r * s.lineRecipe.pitch * 100

/-- The end of the panel's tail (R132). -/
def tailEnd (s : State) : Nat :=
  s.panel.drawStart + s.lineRecipe.leadInMm * 1000
    + (s.lineRecipe.panelRows - 1) * s.lineRecipe.pitch * 100 + s.lineRecipe.tailMm * 1000

/-- The pattern row of a number. -/
def Recipe.patternRow (r : Recipe) (i : Nat) : JunctionSet := r.pattern[i]?.getD 0

/-- The expected set of a row (R119): selvedge_mask or the pattern, within the panel's net. -/
def expectedSet (s : State) (r : Nat) : JunctionSet :=
  let rec' := s.lineRecipe
  let called :=
    if r < rec'.selvedgeRows then rec'.selvedgeMask
    else rec'.patternRow ((r - rec'.selvedgeRows) % rec'.patternLen)
  called &&& junctionsInNet s.panelWidth

/-! ### The feed check -/

/-- The number of junctions of a set that touch a lane (R121): junction j touches lanes j and j + 1. -/
def touching (js : JunctionSet) (l : LaneNo) : Nat :=
  (if junctionIn js l.val then 1 else 0) + (if 0 < l.val ∧ junctionIn js (l.val - 1) then 1 else 0)

/-- The feed of a lane since the last capture, signed (R121). -/
def feedOf (x : Lane) : Int := (x.um : Int) - (x.lastRowTally.getD 0 : Nat)

/-- The feed expected of a lane at row r (R121). -/
def expectedFeed (s : State) (r : Nat) (l : LaneNo) : Nat :=
  (s.lineRecipe.pitch + s.lineRecipe.allowance * touching (expectedSet s (r - 1)) l) * 100

/-- A lane fails the feed check of row r (R121). -/
def feedFails (s : State) (r : Nat) (l : LaneNo) : Bool :=
  decide (s.lineRecipe.feedTol * 100 < (feedOf (s.lane l) - expectedFeed s r l).natAbs)

/-- The lanes that fail the feed check of row r; none at row 0 (R120, R121). -/
def failingLanes (s : State) (r : Nat) : List LaneNo :=
  if r = 0 then [] else (lanesOf s.panelLanes).filter (feedFails s r)

/-- The PITCH mark of a failed feed check (R122). -/
def pitchMark (s : State) (r : Nat) (l : LaneNo) : Mark :=
  { kind := .pitch, lane := l, position := s.knotterOf (s.lane l).um,
    extent := some (feedOf (s.lane l)).toNat, sense := none, row := some r, junction := none, made := 0 }

/-- pitch_run after the feed check of a lane (R122): up by one at a failure and back to 0 at the third,
0 at a pass. -/
def nextPitchRun (failed : Bool) (run : Nat) : Nat :=
  if failed then (if 3 ≤ run + 1 then 0 else run + 1) else 0

/-- The lanes whose pitch_run reaches 3 at row r (R122). -/
def feedStops (s : State) (r : Nat) : List LaneNo :=
  (failingLanes s r).filter fun l => decide (3 ≤ (s.lane l).pitchRun + 1)

/-- The feed check of row r (R121, R122): the PITCH marks, every pitch_run of the panel, and FEED. -/
def feedCheck (r : Nat) (s : State) : State :=
  if r = 0 then s
  else
    let fails := failingLanes s r
    let stops := feedStops s r
    let s1 := handMarks (fails.map (pitchMark s r)) s
    let s2 := forLanes (lanesOf s.panelLanes)
      (fun l t => t.modLane l fun x => { x with pitchRun := nextPitchRun (fails.contains l) x.pitchRun }) s1
    if stops.isEmpty then s2 else s2.requestStop .feed (laneSetOf stops)

/-- Every lane of the panel is captured: last_row_tally takes its tally (R120). -/
def captureLanes (s : State) : State :=
  forLanes (lanesOf s.panelLanes) (fun l t => t.modLane l fun x => { x with lastRowTally := some x.um }) s

/-! ### Knot marks -/

/-- The capture of a junction's lower lane. -/
def capturedAt (captured : List Nat) (j : Nat) : Nat := captured.getD j 0

/-- The knot marks of a kind for the junctions of a set, on lane j at its captured knotter coordinate
(R125, R128, R130). -/
def knotMarks (s : State) (kind : MarkKind) (r : Nat) (captured : List Nat) (js : JunctionSet) : List Mark :=
  (junctionsOf js).map fun j =>
    { kind := kind, lane := laneOfJunction j, position := s.knotterOf (capturedAt captured j), extent := none,
      sense := none, row := some r, junction := some j, made := 0 }

/-- The lanes that marks are handed for. -/
def lanesOfMarks (ms : List Mark) : LaneSet := laneSetOf (ms.map (·.lane))

/-! ### The panel's end -/

/-- The panel-end test (R132). -/
def panelEndMet (s : State) : Bool :=
  s.panel.state == .finishing && s.rows.isEmpty && s.panel.tailReached

/-- When the panel-end test is met, the panel goes to CUT_WAIT and its cut falls due (R133). -/
def panelEndTest (s : State) : State :=
  if panelEndMet s then
    cutFallsDue (.panel s.panelLanes) s.drawUm (s.modPanel fun p => { p with state := .cutWait })
  else s

/-- The test of R132: the draw has reached tail_end. -/
def tailMet (s : State) : Bool :=
  (s.panel.state == .laying || s.panel.state == .finishing) && !s.panel.tailReached &&
    decide (tailEnd s ≤ s.drawUm)

/-- The tail is reached (R132). -/
def tailReachedIfMet (s : State) : State :=
  if tailMet s then panelEndTest (s.modPanel fun p => { p with tailReached := true }) else s

/-! ### A row falling due -/

/-- The row record that joins the list (R123). -/
def rowRecord (s : State) (r : Nat) (captured : List Nat) : RowRecord :=
  { row := r, expected := expectedSet s r, dueDraw := s.drawUm,
    timeoutDraw := s.drawUm + s.lineRecipe.rowTimeout * 100, captured := captured }

/-- A row joins the list at its tail, and ROW_DUE is raised with the lanes that failed (R123). -/
def rowJoins (r : Nat) (captured : List Nat) (fails : LaneSet) (s : State) : State :=
  State.raise .rowDue fails { s with rows := s.rows ++ [rowRecord s r captured] }

/-- A row is skipped on a full list (R125). -/
def rowSkipped (r : Nat) (captured : List Nat) (fails : LaneSet) (s : State) : State :=
  let ms := knotMarks s .missedKnot r captured (expectedSet s r)
  let t := (handMarks ms s).modPanel fun p =>
    { p with lastClosedRow := some r, rowsSkipped := p.rowsSkipped + 1 }
  State.raise .rowClosed (lanesOfMarks ms) (t.requestStop .rowOverrun fails)

/-- next_row goes up by one, and the panel is FINISHING when its last row has fallen due (R118). -/
def advanceRow (s : State) : State :=
  s.modPanel fun p =>
    { p with
      nextRow := p.nextRow + 1
      state := if p.nextRow + 1 = s.lineRecipe.panelRows then .finishing else p.state }

/-- Row next_row falls due (R118, R120): feed check, capture, joining or skip; then the panel-end test. -/
def rowFallsDue (s : State) : State :=
  let r := s.panel.nextRow
  let captured := (lanesOf s.panelLanes).map fun l => (s.lane l).um
  let fails := laneSetOf (failingLanes s r)
  let t := captureLanes (feedCheck r s)
  panelEndTest (advanceRow
    (if t.rows.length < 4 then rowJoins r captured fails t else rowSkipped r captured fails t))

/-- The test of R118: the draw is at or past the due position of row next_row. -/
def rowDueMet (s : State) : Bool :=
  s.panel.state == .laying && decide (rowDue s s.panel.nextRow ≤ s.drawUm)

/-- Row next_row falls due if its test is met. -/
def rowFallsDueIfMet (s : State) : State := if rowDueMet s then rowFallsDue s else s

/-! ### Rows closing -/

/-- last_closed_row after a row closes at the head: the row, unless it names a newer one (R128, R130). -/
def newerRow (last : Option Nat) (r : Nat) : Option Nat :=
  match last with
  | some c => some (max c r)
  | none => some r

/-- The oldest row leaves the list with marks handed for it; `count` advances its count (R128, R130). -/
def closeRow (row : RowRecord) (ms : List Mark) (count : Panel → Panel) (s : State) : State :=
  let t := handMarks ms s
  let u := { t with
    rows := t.rows.tail
    panel := count { t.panel with lastClosedRow := newerRow t.panel.lastClosedRow row.row } }
  panelEndTest (State.raise .rowClosed (lanesOfMarks ms) u)

/-- The oldest row times out: every junction it expects is missed (R130). -/
def rowTimesOut (row : RowRecord) (s : State) : State :=
  closeRow row (knotMarks s .missedKnot row.row row.captured row.expected)
    (fun p => { p with rowsTimedOut := p.rowsTimedOut + 1 }) s

/-- The test of R130: the draw is at or past the oldest row's timeout_draw. -/
def rowTimeoutMet (s : State) : Bool :=
  match s.rows with
  | [] => false
  | row :: _ => decide (row.timeoutDraw ≤ s.drawUm)

/-- The oldest row times out if its test is met. -/
def rowTimeoutIfMet (s : State) : State :=
  match s.rows with
  | [] => s
  | row :: _ => if row.timeoutDraw ≤ s.drawUm then rowTimesOut row s else s

/-- The junctions of a tied set that are dropped: a place outside the seven, or outside the net (R127). -/
def tiedDrops (s : State) (tied : Byte) : Bool :=
  marksOther tied || (junctionsOfByte tied &&& ~~~(junctionsInNet s.panelWidth)) != 0

/-- The tied set of an accepted KNOT_DONE (R127). -/
def tiedSet (s : State) (tied : Byte) : JunctionSet :=
  junctionsOfByte tied &&& junctionsInNet s.panelWidth

/-- The oldest row is confirmed: missed and extra knots are marked, and the row closes (R128). -/
def rowKnotted (row : RowRecord) (tied : JunctionSet) (s : State) : State :=
  closeRow row
    (knotMarks s .missedKnot row.row row.captured (row.expected &&& ~~~tied)
      ++ knotMarks s .extraKnot row.row row.captured (tied &&& ~~~row.expected))
    (fun p => { p with rowsKnotted := p.rowsKnotted + 1 }) s

/-- A row number that is not in the list has closed already (R126). -/
def alreadyClosed (last : Option Nat) (r : Nat) : Bool :=
  match last with
  | some c => decide (r ≤ c)
  | none => false

/-- The service of KNOT_DONE (R126 to R128), its cases in order. -/
def serveKnotDone (bs : List Byte) (s : State) : Served :=
  let r := beAt bs 0 2
  let tied := byteAt bs 2
  if s.line.mode = .rope ∨ s.panelOpen = false then refuse .state s
  else
    match s.rows with
    | row :: rest =>
      if row.row = r then
        { result := .ok, clamped := tiedDrops s tied, state := rowKnotted row (tiedSet s tied) s }
      else if rest.any (fun x => x.row == r) then refuse .order s
      else if alreadyClosed s.panel.lastClosedRow r then refuse .late s
      else refuse .range s
    | [] => if alreadyClosed s.panel.lastClosedRow r then refuse .late s else refuse .range s

/-! ### Opening and halting -/

/-- A panel opens (R115); with no lead-in its row 0 falls due within the opening. -/
def openPanel (s : State) : State :=
  rowFallsDueIfMet
    { s with
      panel :=
        { state := .laying, netWidth := some s.lineRecipe.netWidth, drawStart := s.drawUm, nextRow := 0,
          lastClosedRow := none, tailReached := false, halt := false, rowsKnotted := 0, rowsTimedOut := 0,
          rowsSkipped := 0 } }

/-- The service of PANEL_START (R114), its checks in order. -/
def servePanelStart (s : State) : Served :=
  if s.line.mode = .rope then refuse .state s
  else if s.panelOpen then refuse .state s
  else if (lanesOf s.netSet).all (fun l => (s.lane l).state == .run || (s.lane l).state == .splicing) then
    accept (openPanel s)
  else refuse .state s

/-- The service of PANEL_HALT (R116). -/
def servePanelHalt (s : State) : Served :=
  if s.line.mode = .net ∧ s.panelOpen then accept (s.modPanel fun p => { p with halt := true })
  else refuse .state s

/-- The panel closes at its accepted cut, and the next one opens unless halted or its lanes are not in
RUN, SPLICING or FAULT (R117). -/
def closePanel (s : State) : State :=
  if s.panel.halt then s.modPanel fun p => { p with state := .none, halt := false }
  else if (lanesOf s.netSet).all (fun l => (s.lane l).state.running) then openPanel s
  else s.modPanel fun p => { p with state := .none }

end Sys2Proof.Machine
end

