-- ==== Sys2Proof/Machine/Calibration.lean ====
section
/-! DEFINITION. Wheel calibration (03_wheel_calibration.md): start, the two passes, the outcome, the abort. -/

namespace Sys2Proof.Machine

/-- A calibration is running while its record is in PASS_A or PASS_B (R42). -/
def CalRecord.running (c : CalRecord) : Bool := c.state == .passA || c.state == .passB

/-- The lane set of the lane recorded in a record. -/
def CalRecord.laneSet (c : CalRecord) : LaneSet :=
  match c.lane with
  | some l => laneBit l
  | none => 0

/-- Whether wheel counts reach the record: pass A once started, and pass B (R44, R45, R47). -/
def CalRecord.counting (c : CalRecord) : Bool := (c.state == .passA && c.started) || c.state == .passB

/-- A wheel count of a position adds its sign to n_run of a pass that is counting (R45, R47). -/
def calCount (k : PosNo) (d : Int) (s : State) : State :=
  if (s.cal k).counting then s.modCal k fun c => { c with nRun := c.nRun + d } else s

/-- The finish of a calibration (R49): DONE with result and cause, and CAL with the record's lane. -/
def finishCal (k : PosNo) (r : CalResult) (cause : Option CalCause) (s : State) : State :=
  State.raise .cal (s.cal k).laneSet
    (s.modCal k fun c => { c with state := .done, result := some r, cause := cause })

/-- A calibration running on a lane's position ends as ABORTED (R51). -/
def abortCal (l : LaneNo) (s : State) : State :=
  match (s.lane l).position with
  | none => s
  | some k => if (s.cal k).running then finishCal k .aborted none s else s

/-- The factor of a pass of N revolutions with n > 0 counts, rounded half up (R46). -/
def passFactor (n cRef count : Nat) : Nat := (2 * n * cRef * 256 + count) / (2 * count)

/-- The rising edges that close pass A: N x Pc (R45). -/
def passAEdges (s : State) (k : PosNo) : Nat := (s.cal k).n.getD 0 * (s.position k).pc

/-- Pass A closes (R45): n_A is taken; without a positive count the calibration fails with NO_COUNT, else
K_A is formed and pass B opens at the same edge. -/
def passAClose (k : PosNo) (s : State) : State :=
  let c := s.cal k
  if c.nRun ≤ 0 then
    finishCal k .fail (some .noCount) (s.modCal k fun x => { x with nA := some c.nRun })
  else
    s.modCal k fun x =>
      { x with
        nA := some c.nRun
        kA := some (passFactor (c.n.getD 0) (s.position k).cRef c.nRun.toNat)
        state := .passB, edges := 0, nRun := 0 }

/-- Pass A has reached its closing edge (R45). -/
def passAMet (k : PosNo) (s : State) : Bool :=
  (s.cal k).state == .passA && (s.cal k).started && decide (passAEdges s k ≤ (s.cal k).edges)

/-- Pass A closes if its closing edge has been reached. -/
def passACloseIfMet (k : PosNo) (s : State) : State := if passAMet k s then passAClose k s else s

/-- The mean of two factors, rounded half up (R47). -/
def meanFactor (a b : Nat) : Nat := (a + b + 1) / 2

/-- The difference of two factors. -/
def factorGap (a b : Nat) : Nat := (a - b) + (b - a)

/-- A PASS finishes the calibration and writes K into the position table unless the factor is locked
(R48, R49). -/
def calPass (k : PosNo) (factor : Nat) (s : State) : State :=
  if (s.position k).kLocked then finishCal k .pass none s
  else
    finishCal k .pass none
      ((s.modPosition k fun x => { x with k := factor }).modCal k fun c => { c with stored := true })

/-- Pass B closes, and the outcome is decided (R47): NO_COUNT, RANGE, TOLERANCE or PASS, in that order. -/
def passBClose (k : PosNo) (s : State) : State :=
  let c := s.cal k
  let s1 := s.modCal k fun x => { x with nB := some c.nRun }
  if c.nRun ≤ 0 then finishCal k .fail (some .noCount) s1
  else
    let kA := c.kA.getD 0
    let kB := passFactor (c.n.getD 0) (s.position k).cRef c.nRun.toNat
    let m := meanFactor kA kB
    let s2 := s1.modCal k fun x => { x with kB := some kB, k := some m }
    if m < 12800 ∨ 512000 < m then finishCal k .fail (some .range) s2
    else if m * c.calTol.getD 0 < factorGap kA kB * 1000 then finishCal k .fail (some .tolerance) s2
    else calPass k m s2

/-- Pass B has reached its closing edge, the (N x Pc + 1)-th falling edge (R47). -/
def passBMet (k : PosNo) (s : State) : Bool :=
  (s.cal k).state == .passB && decide (passAEdges s k + 1 ≤ (s.cal k).edges)

/-- Pass B closes if its closing edge has been reached. -/
def passBCloseIfMet (k : PosNo) (s : State) : State := if passBMet k s then passBClose k s else s

/-- A rising capstan edge at the calibration record (R45): it starts pass A, or counts in it and may close
it. -/
def calRising (k : PosNo) (s : State) : State :=
  if (s.cal k).state == .passA then
    if (s.cal k).started then
      passACloseIfMet k (s.modCal k fun c => { c with edges := c.edges + 1 })
    else
      s.modCal k fun c => { c with started := true, edges := 0, nRun := 0 }
  else s

/-- A falling capstan edge at the calibration record (R47): it counts in pass B and may close it. -/
def calFalling (k : PosNo) (s : State) : State :=
  if (s.cal k).state == .passB then
    passBCloseIfMet k (s.modCal k fun c => { c with edges := c.edges + 1 })
  else s

/-- The record of an accepted CALIBRATE (R44). -/
def calStart (lane : Option LaneNo) (n tol : Nat) : CalRecord :=
  { CalRecord.reset with state := .passA, lane := lane, n := some n, calTol := some tol }

/-- Whether the lane mapped to a position is in RUN (R43). -/
def mappedInRun (s : State) (k : PosNo) : Bool :=
  match (s.position k).mappedLane with
  | none => false
  | some l => (s.lane l).state == .run

/-- The service of CALIBRATE (R43, R44): the checks in their order, then the record in PASS_A. -/
def serveCalibrate (bs : List Byte) (s : State) : Served :=
  match posNo (byteAt bs 0) with
  | none => refuse .range s
  | some k =>
    let n := (byteAt bs 1).toNat
    let tol := (byteAt bs 2).toNat
    if n < 1 ∨ 64 < n ∨ tol < 1 ∨ 50 < tol then refuse .range s
    else if (s.cal k).running then refuse .state s
    else if mappedInRun s k then
      accept (s.modCal k fun _ => calStart (s.position k).mappedLane n tol)
    else refuse .state s

end Sys2Proof.Machine
end

