-- ==== Sys2Proof/Machine/Twist.lean ====
section
/-! DEFINITION. The twist monitor (04_twist_measurement_and_trim.md): windows, band, zones, slip, the
adaptation period and the trim, splices; and the entry of a lane into FAULT (R19). -/

namespace Sys2Proof.Machine

/-! ### Windows opened and discarded -/

/-- A change of a lane's state raises LANE_STATE with the lane (R3). -/
def setLaneState (l : LaneNo) (st : LaneState) (s : State) : State :=
  State.raise .laneState (laneBit l) (s.modLane l fun x => { x with state := st })

/-- A window opens at the tally (R55). -/
def Lane.openWindow (x : Lane) : Lane := { x with windowStart := x.um, windowPulses := 0, capstanPulses := 0 }

/-- The counts of the adaptation period become 0 (R55, R58, R65). -/
def Lane.clearPeriod (x : Lane) : Lane := { x with periodIndex := 0, highCount := 0, lowCount := 0 }

/-- The open window is discarded and its period ends without a decision (R58). -/
def Lane.discardWindow (x : Lane) : Lane := { x.clearPeriod with windowPulses := 0, capstanPulses := 0 }

/-- A window opens other than at a window end, and the period restarts (R55). -/
def Lane.restartWindow (x : Lane) : Lane := x.clearPeriod.openWindow

/-! ### Trim at RUN entry and at a switch -/

/-- The trim that a recipe's trim_start sets (R69): the middle of the range truncated toward zero, or the
held trim clamped into the range. -/
def startTrim (r : Recipe) (held : Int) : Int :=
  match r.trimStart with
  | .mid => (r.trimMin + r.trimMax).tdiv 2
  | .keep => clampInt r.trimMin r.trimMax held

/-- Trim is set from the active slot's trim_start, with TRIM when it changes (R69, R70). -/
def setStartTrim (l : LaneNo) (s : State) : State :=
  let v := startTrim (s.activeRecipe l) (s.lane l).trim
  if v = (s.lane l).trim then s
  else State.raise .trim (laneBit l) (s.modLane l fun x => { x with trim := v })

/-- A new active slot, with limit_strike back at 0: the strikes were counted against the old limits (R68,
R70). -/
def Lane.takeSlot (slot : SlotNo) (x : Lane) : Lane := { x with slot := slot, limitStrike := false }

/-- A lane takes a new active slot and is restarted under it according to its state (R70, R111): trim is set
in RUN, SPLICING and FAULT, and the window and the period restart in RUN. -/
def switchLane (l : LaneNo) (slot : SlotNo) (s : State) : State :=
  let t := s.modLane l (Lane.takeSlot slot)
  match (s.lane l).state with
  | .run => (setStartTrim l t).modLane l Lane.restartWindow
  | .splicing | .fault => setStartTrim l t
  | .idle | .threading | .stopping => t

/-! ### Splice closure and fault entry -/

/-- The extent at which an open splice closes: the tally less splice_start, or 0 (R72, R74). -/
def spliceExtent (x : Lane) : Nat := x.um - x.spliceStart.getD 0

/-- The open splice of a lane is closed (R72, R73, R74): its mark takes its extent, and splice_start
becomes none. -/
def closeSplice (l : LaneNo) (s : State) : State :=
  if (s.lane l).spliceStart.isSome then
    (s.setMarkList l (closeSpliceIn (spliceExtent (s.lane l)) (s.markList l))).modLane l
      fun x => { x with spliceStart := none }
  else s

/-- A lane entering FAULT asks for LANE_FAULT: its recipe has stop_on_fault set, or it is a lane of the
net set while a panel is open in NET mode (R19). -/
def asksLaneFault (l : LaneNo) (s : State) : Bool :=
  (s.activeRecipe l).stopOnFault || (s.line.mode == .net && s.panelOpen && laneIn s.netSet l)

/-- What leaves RUN or SPLICING at a fault entry (R19): from RUN the window is discarded, unless its end
found the cause, and the period ends; from SPLICING the splice is closed. -/
def leaveForFault (l : LaneNo) (atWindowEnd : Bool) (s : State) : State :=
  match (s.lane l).state with
  | .run => s.modLane l fun x => if atWindowEnd then x.clearPeriod else x.discardWindow
  | .splicing => closeSplice l s
  | .idle | .threading | .fault | .stopping => s

/-- A lane in RUN or SPLICING enters FAULT with a cause (R19). -/
def faultEntry (l : LaneNo) (cause : FaultCause) (atWindowEnd : Bool) (s : State) : State :=
  let t := abortCal l (leaveForFault l atWindowEnd s)
  let u := setLaneState l .fault (t.modLane l fun x => { x with faultCause := some cause })
  if asksLaneFault l u then u.requestStop .laneFault (laneBit l) else u

/-! ### The window end -/

/-- The twist of a window (R59), rounded half up and clamped to 65535. -/
def windowTpm (p np lw : Nat) : Nat := min 65535 ((2 * p * 10 ^ 8 + np * lw) / (2 * np * lw))

/-- The results of the band test (R60). -/
inductive BandResult where
  | high | low | inBand
  deriving DecidableEq, Repr

/-- The band of a recipe (R60). -/
def Recipe.band (r : Recipe) : Nat := r.targetTpm * r.tolPm / 1000

/-- The band test (R60). -/
def bandTest (r : Recipe) (tpm : Nat) : BandResult :=
  if r.targetTpm + r.band < tpm then .high else if tpm + r.band < r.targetTpm then .low else .inBand

/-- The sense of an out-of-band window. -/
def BandResult.sense : BandResult → Option Sense
  | .high => some .high
  | .low => some .low
  | .inBand => none

/-- The TWIST_ZONE mark of an out-of-band window that continues no zone, raised to coil_start; none when
nothing is left of it (R61). -/
def newZone (l : LaneNo) (x : Lane) (lw : Nat) (sense : Sense) : List Mark :=
  let start := max x.windowStart x.coilStart
  if x.windowStart + lw ≤ start then []
  else [{ kind := .twistZone, lane := l, position := start, extent := some (x.windowStart + lw - start),
          sense := some sense, row := none, junction := none, made := 0 }]

/-- An out-of-band window extends the lane's newest zone where it continues it, or makes a new one (R61). -/
def zoneStep (l : LaneNo) (lw : Nat) (sense : Option Sense) (s : State) : State :=
  match sense with
  | none => s
  | some sn =>
    let fresh := handMarks (newZone l (s.lane l) lw sn) s
    match newestZone (s.markList l) with
    | some (i, z) =>
      if z.endPos = (s.lane l).windowStart then s.setMarkList l ((s.markList l).modify i (extendZone lw sn))
      else fresh
    | none => fresh

/-- The capstan length of a window (R62). -/
def capstanLength (c cRef pc : Nat) : Nat := c * cRef / pc

/-- The slip test (R62). -/
def isSlip (lCap lw slipPm : Nat) : Bool :=
  decide (0 < lCap) && decide ((lCap : Int) * slipPm < ((lCap : Int) - lw) * 1000)

/-- The SLIP mark of a slip window (R62). -/
def slipMark (l : LaneNo) (x : Lane) : Mark :=
  { kind := .slip, lane := l, position := max x.um x.coilStart, extent := none, sense := none, row := none,
    junction := none, made := 0 }

/-- The slip step of a window end (R62): the mark and slip_run. -/
def slipStep (l : LaneNo) (slip : Bool) (s : State) : State :=
  if slip then
    (handMarks [slipMark l (s.lane l)] s).modLane l fun x => { x with slipRun := min 3 (x.slipRun + 1) }
  else s.modLane l fun x => { x with slipRun := 0 }

/-- A counter of a lane goes up by one and stops at 65535 (R2). -/
def countUp (n : Nat) : Nat := min 65535 (n + 1)

/-- The counters of a window end (R2, R57). -/
def Counters.windowEnded (c : Counters) (b : BandResult) (slip : Bool) : Counters :=
  { c with
    windows := countUp c.windows
    high := if b = .high then countUp c.high else c.high
    low := if b = .low then countUp c.low else c.low
    slips := if slip then countUp c.slips else c.slips }

/-- The settling windows of a period (R64). -/
def Recipe.settle (r : Recipe) : Nat := if r.twoStep then r.period / 2 else 0

/-- A window is counted into the adaptation period (R64). -/
def countWindow (r : Recipe) (b : BandResult) (slip : Bool) (x : Lane) : Lane :=
  let i := x.periodIndex + 1
  let counted := decide (r.settle < i) && !slip
  { x with
    periodIndex := i
    highCount := if counted && b == .high then x.highCount + 1 else x.highCount
    lowCount := if counted && b == .low then x.lowCount + 1 else x.lowCount }

/-- The wanted step at the end of a period (R65); 0 for none. -/
def wantedStep (r : Recipe) (x : Lane) : Int :=
  if r.threshold < x.highCount ∧ x.lowCount ≤ x.highCount then -1
  else if r.threshold < x.lowCount then 1
  else 0

/-- The decision at a period's last window (R65 to R67): an applied step, no step, or a strike; the second
strike in consecutive decided periods puts the lane into FAULT with cause TRIM_LIMIT. -/
def periodDecision (l : LaneNo) (s : State) : State :=
  let r := s.activeRecipe l
  let x := s.lane l
  let step := wantedStep r x
  let t := s.modLane l Lane.clearPeriod
  if step = 0 then t.modLane l fun y => { y with limitStrike := false }
  else if r.trimMin ≤ x.trim + step ∧ x.trim + step ≤ r.trimMax then
    State.raise .trim (laneBit l) (t.modLane l fun y => { y with trim := y.trim + step, limitStrike := false })
  else
    let u := State.raise .trim (laneBit l)
      (t.modLane l fun y => { y with trimLimited := true, limitStrike := true })
    if x.limitStrike then faultEntry l .trimLimit true u else u

/-- Step 7 of a window end (R64, R65). -/
def periodStep (l : LaneNo) (b : BandResult) (slip : Bool) (s : State) : State :=
  let r := s.activeRecipe l
  let t := s.modLane l (countWindow r b slip)
  if (t.lane l).periodIndex = r.period then periodDecision l t else t

/-- Step 8 of a window end (R57): a new window opens if the lane is still in RUN. -/
def reopenWindow (l : LaneNo) (s : State) : State :=
  if (s.lane l).state = .run then s.modLane l Lane.openWindow else s

/-- The window end on a lane mapped to position k (R57), its eight steps in order. -/
def windowEndAt (l : LaneNo) (k : PosNo) (s : State) : State :=
  let x := s.lane l
  let pos := s.position k
  let r := s.activeRecipe l
  let lw := x.um - x.windowStart
  let tpm := windowTpm x.windowPulses pos.np lw
  let b := bandTest r tpm
  let slip := isSlip (capstanLength x.capstanPulses pos.cRef pos.pc) lw r.slipPm
  let s1 := s.modLane l fun y => { y with lastTpm := some tpm }
  let s2 := zoneStep l lw b.sense s1
  let s3 := slipStep l slip s2
  let s4 := s3.modLane l fun y => { y with counters := y.counters.windowEnded b slip }
  if 3 ≤ (s4.lane l).slipRun then faultEntry l .wheelSlip true s4
  else reopenWindow l (periodStep l b slip s4)

/-- The window end of a lane (R57). A lane in RUN is mapped to a position (R8). -/
def windowEnd (l : LaneNo) (s : State) : State :=
  match (s.lane l).position with
  | some k => windowEndAt l k s
  | none => s

/-- The window-end test (R30, R57). -/
def windowMet (l : LaneNo) (s : State) : Bool :=
  (s.lane l).state == .run &&
    decide ((s.lane l).windowStart + (s.activeRecipe l).windowMm * 1000 ≤ (s.lane l).um)

/-- The window ends if its test is met. -/
def windowEndIfMet (l : LaneNo) (s : State) : State := if windowMet l s then windowEnd l s else s

/-! ### Pulses -/

/-- The greatest pulse count of a window (R54, R56). -/
def pulseCeiling : Nat := 16777215

/-- A flyer pulse at a lane in RUN (R56). -/
def flyerPulse (l : LaneNo) (s : State) : State :=
  if (s.lane l).state = .run then
    s.modLane l fun x => { x with windowPulses := min pulseCeiling (x.windowPulses + 1) }
  else s

/-- A capstan pulse at a lane in RUN (R56). -/
def capstanPulse (l : LaneNo) (s : State) : State :=
  if (s.lane l).state = .run then
    s.modLane l fun x => { x with capstanPulses := min pulseCeiling (x.capstanPulses + 1) }
  else s

/-! ### Splices -/

/-- The test of R73 and R30: the tally lies past splice_start + splice_max_mm x 1000. -/
def spliceOverlongMet (l : LaneNo) (s : State) : Bool :=
  (s.lane l).state == .splicing &&
    match (s.lane l).spliceStart with
    | none => false
    | some a => decide (a + (s.activeRecipe l).spliceMaxMm * 1000 < (s.lane l).um)

/-- An overlong splice puts the lane into FAULT, closing the splice (R73, R19). -/
def spliceOverlongIfMet (l : LaneNo) (s : State) : State :=
  if spliceOverlongMet l s then faultEntry l .spliceOverlong false s else s

/-- The open SPLICE mark of an accepted SPLICE_BEGIN (R71). -/
def spliceMark (l : LaneNo) (pos : Nat) : Mark :=
  { kind := .splice, lane := l, position := pos, extent := none, sense := none, row := none,
    junction := none, made := 0 }

/-- An accepted SPLICE_BEGIN (R71, R139): the window is discarded, a running calibration aborted, the
splice opened and marked, the counter increased; the short-coil test is made for a mark that was
stored. -/
def spliceBegin (l : LaneNo) (s : State) : State :=
  let start := max (s.lane l).um (s.lane l).coilStart
  let stored := s.freeEntries ≠ 0
  let s1 := abortCal l (s.modLane l Lane.discardWindow)
  let s2 := s1.modLane l fun x =>
    { x with spliceStart := some start, counters := { x.counters with splices := countUp x.counters.splices } }
  let s3 := setLaneState l .splicing (handMark (spliceMark l start) s2)
  if stored then shortCoilTest l start s3 else s3

/-- An accepted SPLICE_END (R72): the splice is closed, and the lane returns to RUN with a new window. -/
def spliceEnd (l : LaneNo) (s : State) : State :=
  setLaneState l .run ((closeSplice l s).modLane l Lane.restartWindow)

/-- The service of a command with one lane number: RANGE outside 0 to 7, else the lane's own service. -/
def serveLane (bs : List Byte) (f : LaneNo → State → Served) (s : State) : Served :=
  match laneNo (byteAt bs 0) with
  | none => refuse .range s
  | some l => f l s

/-- The service of SPLICE_BEGIN (R17, R71). -/
def serveSpliceBegin (bs : List Byte) (s : State) : Served :=
  serveLane bs (fun l t => if (t.lane l).state = .run then accept (spliceBegin l t) else refuse .state t) s

/-- The service of SPLICE_END (R17, R72). -/
def serveSpliceEnd (bs : List Byte) (s : State) : Served :=
  serveLane bs (fun l t => if (t.lane l).state = .splicing then accept (spliceEnd l t) else refuse .state t) s

end Sys2Proof.Machine
end

