-- ==== Sys2Proof/Machine/Packages.lean ====
section
/-! DEFINITION. The accepted cut: cut positions, the marks that go out, the package, the switches, the next
coil or panel (08_cuts_and_packages.md R145 to R157; 06_recipes_and_patterns.md R109, R110). -/

namespace Sys2Proof.Machine

/-! ### Cutting one lane -/

/-- The cut position of a lane: its cutter coordinate, raised to coil_start (R147). -/
def cutPosition (s : State) (l : LaneNo) : Nat := max (s.cutterCoord l) (s.lane l).coilStart

/-- What one lane gives to a package (R146 to R149). -/
structure LaneCut where
  lane : LaneNo
  coilStart : Nat
  lengthUm : Nat
  out : List Mark
  marksLost : Bool
  trimLimited : Bool
  deriving DecidableEq, Repr

/-- What a cut takes of a lane, judged before the acceptance changes anything (R147 to R149). An END
coil is measured to the tally, if that is greater than the cut position. -/
def laneCut (isEnd : Bool) (s : State) (l : LaneNo) : LaneCut :=
  let x := s.lane l
  let cut := cutPosition s l
  { lane := l
    coilStart := x.coilStart
    lengthUm := (if isEnd then max x.um cut else cut) - x.coilStart
    out := marksOut isEnd cut (s.markList l)
    marksLost := x.marksLost
    trimLimited := x.trimLimited }

/-- splice_start moves to the cut position when it is less (R74, R89). -/
def moveSpliceStart (cut : Nat) (a : Option Nat) : Option Nat := a.map (max cut)

/-- The effects of a cut on a lane (R87, R146, R151): its marks are sorted, coil_start becomes the cut
position, an open splice's start moves with it, and the flags handed over are cleared. -/
def cutLane (isEnd : Bool) (l : LaneNo) (s : State) : State :=
  let cut := cutPosition s l
  (s.setMarkList l (marksStay isEnd cut (s.markList l))).modLane l fun x =>
    { x with
      coilStart := cut
      spliceStart := moveSpliceStart cut x.spliceStart
      marksLost := false
      trimLimited := false }

/-! ### The package -/

/-- The marks of a kind in a sequence. -/
def countKind (ms : List Mark) (k : MarkKind) : Nat := (ms.filter fun m => m.kind == k).length

/-- The totals of the marks gone out (R149). -/
def totalsOf (ms : List Mark) : Totals :=
  { splice := countKind ms .splice, twistZone := countKind ms .twistZone, slip := countKind ms .slip,
    pitch := countKind ms .pitch, missedKnot := countKind ms .missedKnot, extraKnot := countKind ms .extraKnot }

/-- An entry of the mark list (R149): offset from the lane's coil_start before the acceptance, in mm. -/
def packageMark (coilStart : Nat) (m : Mark) : PackageMark :=
  { kind := m.kind, lane := m.lane, offset := (m.position - coilStart) / 1000,
    extent := m.extent.map (· / 1000), row := m.row, junction := m.junction }

/-- The longest mark list of a package (R148). -/
def markListMax : Nat := 12

/-- All marks gone out at a cut, by lane and in list order (R92). -/
def allOut (cs : List LaneCut) : List Mark := cs.flatMap (·.out)

/-- The mark list entries of all marks gone out. -/
def allPackageMarks (cs : List LaneCut) : List PackageMark :=
  cs.flatMap fun c => c.out.map (packageMark c.coilStart)

/-- Some one lane's SPLICE marks gone out number more than max_splices (R150). -/
def spliceExcess (r : Recipe) (cs : List LaneCut) : Bool :=
  cs.any fun c => decide (r.maxSplices < countKind c.out .splice)

/-- A COIL package is longer than its recipe allows (R150). -/
def isOverlength (r : Recipe) (cs : List LaneCut) : Bool :=
  cs.any fun c => decide (r.coilM * 1000000 + r.overlengthMm * 1000 < c.lengthUm)

/-- The flags of a COIL package (R150, R151). -/
def coilFlags (r : Recipe) (reason : CutReason) (cs : List LaneCut) : PackageFlags :=
  { short := reason == .short
    endCut := reason == .endCut
    overlength := isOverlength r cs
    spliceExcess := spliceExcess r cs
    marksIncomplete := cs.any (·.marksLost)
    marksTruncated := decide (markListMax < (allOut cs).length)
    trimLimited := cs.any (·.trimLimited)
    rowsSkipped := false }

/-- The flags of a PANEL package (R150, R151). -/
def panelFlags (r : Recipe) (rowsSkipped : Bool) (cs : List LaneCut) : PackageFlags :=
  { short := false
    endCut := false
    overlength := false
    spliceExcess := spliceExcess r cs
    marksIncomplete := cs.any (·.marksLost)
    marksTruncated := decide (markListMax < (allOut cs).length)
    trimLimited := cs.any (·.trimLimited)
    rowsSkipped := rowsSkipped }

/-- The package of an accepted cut (R148). -/
def packageOf (s : State) (kind : PackageKind) (lane : Option LaneNo) (slot : SlotNo) (rows : Option Nat)
    (flags : PackageFlags) (cs : List LaneCut) : Package :=
  { number := s.cuts.counter, kind := kind, lane := lane, slot := slot,
    lengths := cs.map fun c => c.lengthUm / 1000
    rows := rows, flags := flags, totals := totalsOf (allOut cs)
    markList := (allPackageMarks cs).take markListMax }

/-- The counter after a package took its value (R152): 1 follows 65535. -/
def nextNumber (n : Nat) : Nat := if n = 65535 then 1 else n + 1

/-- The package joins the queue's tail, the counter advances, and PACKAGE is raised (R146, R152). -/
def queuePackage (pkg : Package) (lanes : LaneSet) (s : State) : State :=
  State.raise .package lanes
    (s.modCuts fun u => { u with queue := u.queue ++ [pkg], counter := nextNumber u.counter })

/-! ### Switches -/

/-- A pending switch of a lane is applied at its COIL cut (R109): at an END cut the trim is left as it
was (R70), else the lane is restarted as R111 gives. -/
def laneSwitch (isEnd : Bool) (l : LaneNo) (s : State) : State :=
  match (s.lane l).pendingSlot with
  | none => s
  | some slot =>
    let t := s.modLane l fun x => { x with pendingSlot := none }
    State.raise .recipe (laneBit l)
      (if isEnd then t.modLane l (Lane.takeSlot slot) else switchLane l slot t)

/-- The lanes that are not IDLE. -/
def lanesInUse (s : State) : List LaneNo := allLanes.filter fun l => (s.lane l).state != .idle

/-- A line switch (R107, R110): the line slot takes the slot, every lane that is not IDLE takes it with the
restart of R111, and RECIPE is raised with those lanes. -/
def lineSwitch (slot : SlotNo) (s : State) : State :=
  let ls := lanesInUse s
  State.raise .recipe (laneSetOf ls)
    (forLanes ls (fun l t => switchLane l slot t)
      { s with line := { s.line with lineSlot := slot, pendingLineSlot := none } })

/-- A pending line switch is applied at an accepted PANEL cut (R110). -/
def pendingLineSwitch (s : State) : State :=
  match s.line.pendingLineSlot with
  | none => s
  | some slot => lineSwitch slot s

/-! ### Acceptance -/

/-- The first entry that fits leaves the list (R146). -/
def removeEntry (fits : CutEntry → Bool) (s : State) : State :=
  s.modCuts fun u => { u with list := u.list.eraseP fits }

/-- What follows an accepted COIL cut for its lane (R146): IDLE after an END cut, a fresh plan otherwise. -/
def afterCoilCut (isEnd : Bool) (l : LaneNo) (s : State) : State :=
  if isEnd then setLaneState l .idle s else freshPlan l s

/-- The REQUESTED entry of a lane's coil. -/
def isRequestedCoil (l : LaneNo) (e : CutEntry) : Bool := e.what.isCoilOf l && e.isRequested

/-- The REQUESTED entry of the panel. -/
def isRequestedPanel (e : CutEntry) : Bool := !e.what.isCoil && e.isRequested

/-- The acceptance of a COIL cut of a lane with its reason (R146), its steps in order. -/
def acceptCoil (l : LaneNo) (reason : CutReason) (s : State) : State :=
  let isEnd := reason == .endCut
  let cs := [laneCut isEnd s l]
  let pkg := packageOf s .coil (some l) (s.lane l).slot none (coilFlags (s.activeRecipe l) reason cs) cs
  let t := queuePackage pkg (laneBit l) (removeEntry (isRequestedCoil l) (cutLane isEnd l s))
  joinDeferred (afterCoilCut isEnd l (laneSwitch isEnd l t))

/-- The rows closed in the panel (R134). -/
def rowsClosed (p : Panel) : Nat := p.rowsKnotted + p.rowsTimedOut + p.rowsSkipped

/-- The acceptance of the PANEL cut of its lanes (R146), its steps in order. -/
def acceptPanel (lanes : LaneSet) (s : State) : State :=
  let cs := (lanesOf lanes).map (laneCut false s)
  let pkg := packageOf s .panel none s.line.lineSlot (some (rowsClosed s.panel))
    (panelFlags s.lineRecipe (decide (0 < s.panel.rowsSkipped)) cs) cs
  let t := queuePackage pkg lanes (removeEntry isRequestedPanel (forLanes (lanesOf lanes) (cutLane false) s))
  joinDeferred (closePanel (pendingLineSwitch t))

/-- The acceptance of an entry (R146). -/
def acceptCut (w : CutWhat) (s : State) : State :=
  match w with
  | .coil l reason => acceptCoil l reason s
  | .panel lanes => acceptPanel lanes s

/-- What CUT_DONE names: a lane number, or PANEL as 80h (R145, R174). -/
def cutName (b : Byte) : Option CutName :=
  if b = 0x80 then some .panel else (laneNo b).map .lane

/-- The entry that CUT_DONE names is REQUESTED (R145). -/
def isRequestedFor (c : CutName) (e : CutEntry) : Bool :=
  match c with
  | .lane l => isRequestedCoil l e
  | .panel => isRequestedPanel e

/-- The service of CUT_DONE (R145). -/
def serveCutDone (bs : List Byte) (s : State) : Served :=
  match cutName (byteAt bs 0) with
  | none => refuse .range s
  | some c =>
    match s.cuts.list.find? (isRequestedFor c) with
    | none => refuse .notDue s
    | some e => accept (acceptCut e.what s)

/-- The service of RELEASE_PACKAGE (R157). -/
def serveReleasePackage (s : State) : Served :=
  match s.cuts.queue with
  | [] => refuse .empty s
  | _ :: rest => accept (promoteHeld (s.modCuts fun u => { u with queue := rest }))

end Sys2Proof.Machine
end

