-- ==== Sys2Proof/Machine/Lanes.lean ====
section
/-! DEFINITION. The lane unit (01_lanes_and_positions.md): line mode, mapping, starting, stopping and
clearing a lane, the position fields, the lane counters. -/

namespace Sys2Proof.Machine

/-! ### Threading -/

/-- The lane enters RUN from THREADING (R13): trim from trim_start, the first window, and in ROPE mode a
WATCHING plan whose cut may fall due at once (R137). -/
def threadingEnd (l : LaneNo) (s : State) : State :=
  let t := setLaneState l .run ((setStartTrim l s).modLane l Lane.restartWindow)
  if s.line.mode = .rope then coilCutDueIfMet l (freshPlan l t) else t

/-- The test of R13: the tally is at or past the threading length. -/
def threadingMet (l : LaneNo) (s : State) : Bool :=
  (s.lane l).state == .threading && decide ((s.activeRecipe l).threadMm * 1000 ≤ (s.lane l).um)

/-- Threading ends if its test is met. -/
def threadingEndIfMet (l : LaneNo) (s : State) : State := if threadingMet l s then threadingEnd l s else s

/-! ### Start -/

/-- A slot is consistent (06_recipes_and_patterns.md R103). -/
def Recipe.consistent (r : Recipe) : Bool :=
  decide (r.trimMin ≤ r.trimMax) && decide (r.minCoilM ≤ r.coilM) && decide (1 ≤ r.patternLen)

/-- The record of an accepted START_LANE (R12). -/
def startRecord (mode : LineMode) (lineSlot : SlotNo) (x : Lane) : Lane :=
  { x with
    tally := 0, coilStart := 0
    slot := if mode = .net then lineSlot else x.slot
    pendingSlot := if mode = .net then none else x.pendingSlot
    lastTpm := none, windowStart := 0, windowPulses := 0, capstanPulses := 0
    periodIndex := 0, highCount := 0, lowCount := 0, limitStrike := false, slipRun := 0, pitchRun := 0
    spliceStart := none, faultCause := none, counters := Counters.zero, marksLost := false
    trimLimited := false, lastRowTally := none }

/-- An accepted START_LANE (R12): THREADING, and RUN at once when the threading length is 0 (R13). -/
def startLane (l : LaneNo) (s : State) : State :=
  threadingEndIfMet l
    (setLaneState l .threading (s.modLane l (startRecord s.line.mode s.line.lineSlot)))

/-- A lane is mapped to a position in service (R11). -/
def onServicePosition (s : State) (l : LaneNo) : Bool :=
  match (s.lane l).position with
  | none => false
  | some k => (s.position k).inService

/-- The recipe a lane would start under (R11). -/
def startRecipe (s : State) (l : LaneNo) : Recipe :=
  if s.line.mode = .net then s.lineRecipe else s.activeRecipe l

/-- The service of START_LANE (R11, R12), its checks in order. -/
def serveStartLane (bs : List Byte) (s : State) : Served :=
  serveLane bs (fun l t =>
    if (t.lane l).state ≠ .idle then refuse .state t
    else if onServicePosition t l = false then refuse .state t
    else if t.line.mode = .net ∧ laneIn t.netSet l = false then refuse .range t
    else if (startRecipe t l).consistent then accept (startLane l t)
    else refuse .range t) s

/-! ### Stop -/

/-- What leaves RUN, SPLICING or FAULT at an accepted STOP_LANE (R15): the window, the open splice, the
fault cause. -/
def leaveForStop (l : LaneNo) (s : State) : State :=
  match (s.lane l).state with
  | .run => s.modLane l Lane.discardWindow
  | .splicing => closeSplice l s
  | .fault => s.modLane l fun x => { x with faultCause := none }
  | .idle | .threading | .stopping => s

/-- An accepted STOP_LANE for a lane in RUN, SPLICING or FAULT (R15): a running calibration is aborted, the
lane goes to STOPPING and its END cut falls due (R140). -/
def stopLane (l : LaneNo) (s : State) : State :=
  endCutDue l (setLaneState l .stopping (abortCal l (leaveForStop l s)))

/-- STOP_LANE is refused while a panel is open, for a lane of the net set in NET mode (R15). -/
def heldInPanel (s : State) (l : LaneNo) : Bool :=
  s.line.mode == .net && s.panelOpen && laneIn s.netSet l

/-- The service of STOP_LANE (R14, R15). -/
def serveStopLane (bs : List Byte) (s : State) : Served :=
  serveLane bs (fun l t =>
    match (t.lane l).state with
    | .threading => accept (setLaneState l .idle t)
    | .run | .splicing | .fault => if heldInPanel t l then refuse .state t else accept (stopLane l t)
    | .idle | .stopping => refuse .state t) s

/-! ### Clear -/

/-- An accepted CLEAR_LANE (R21). -/
def clearLane (l : LaneNo) (s : State) : State :=
  setLaneState l .run
    (s.modLane l fun x => { x.restartWindow with faultCause := none, slipRun := 0, limitStrike := false })

/-- The service of CLEAR_LANE (R21). -/
def serveClearLane (bs : List Byte) (s : State) : Served :=
  serveLane bs (fun l t =>
    if (t.lane l).state = .fault ∧ (t.lane l).faultCause ≠ some .tallyLimit then accept (clearLane l t)
    else refuse .state t) s

/-! ### Mode and map -/

/-- A change of the line mode (R4, R192): pending switches are dropped, the draw tally and the panel
record start afresh. -/
def changeMode (m : LineMode) (s : State) : State :=
  let t := s.mapLanes fun x => { x with pendingSlot := none }
  { t with
    line := { t.line with mode := m, pendingLineSlot := none, drawTally := 0 }
    panel := Panel.reset }

/-- The mode a parameter names (R174): ROPE 00h, NET 01h. -/
def modeOf (b : Byte) : Option LineMode := if b = 0 then some .rope else if b = 1 then some .net else none

/-- The service of SET_MODE (R4, R192). -/
def serveSetMode (bs : List Byte) (s : State) : Served :=
  match modeOf (byteAt bs 0) with
  | none => refuse .range s
  | some m =>
    if s.allIdle = false then refuse .state s
    else if m = s.line.mode then accept s
    else accept (changeMode m s)

/-- The target a MAP_LANE names: none as FFh, a position, or nothing (R9, R174). -/
def mapTarget (b : Byte) : Option (Option PosNo) := if b = 0xFF then some none else (posNo b).map some

/-- The target is out of service, or mapped to another lane (R9). -/
def mapConflict (s : State) (l : LaneNo) (target : Option PosNo) : Bool :=
  match target with
  | none => false
  | some k =>
    !(s.position k).inService ||
      match (s.position k).mappedLane with
      | none => false
      | some m => m != l

/-- A position is freed of its lane. -/
def unmapPosition (k : Option PosNo) (s : State) : State :=
  match k with
  | none => s
  | some k => s.modPosition k fun x => { x with mappedLane := none }

/-- A position takes a lane. -/
def mapPosition (k : Option PosNo) (l : LaneNo) (s : State) : State :=
  match k with
  | none => s
  | some k => s.modPosition k fun x => { x with mappedLane := some l }

/-- An accepted MAP_LANE to a new target keeps both views of the map (R8, R9). -/
def mapLane (l : LaneNo) (target : Option PosNo) (s : State) : State :=
  (mapPosition target l (unmapPosition (s.lane l).position s)).modLane l fun x => { x with position := target }

/-- The service of MAP_LANE (R9), its checks in order. -/
def serveMapLane (bs : List Byte) (s : State) : Served :=
  match laneNo (byteAt bs 0), mapTarget (byteAt bs 1) with
  | some l, some target =>
    if (s.lane l).state ≠ .idle then refuse .state s
    else if mapConflict s l target then refuse .conflict s
    else if target = (s.lane l).position then accept s
    else accept (mapLane l target s)
  | _, _ => refuse .range s

/-! ### Fields of a position -/

/-- The lane mapped to a position is not IDLE (R7). -/
def mappedInUse (s : State) (k : PosNo) : Bool :=
  match (s.position k).mappedLane with
  | none => false
  | some l => (s.lane l).state != .idle

/-- A field of SET_POSITION is refused (R7): in_service no while its lane is in use, or any field while a
calibration of the position runs. -/
def positionFieldRefused (s : State) (k : PosNo) (field : PositionField) (v : Nat) : Bool :=
  (s.cal k).running || (field == .inService && v == 0 && mappedInUse s k)

/-- The service of a field of SET_POSITION (R6, R7). -/
def servePositionField (k : PosNo) (field : PositionField) (bs : List Byte) (s : State) : Served :=
  let v := beNat bs
  if positionFieldRefused s k field v then refuse .state s
  else
    let stored := storedPositionValue field v
    { result := .ok, clamped := stored != v, state := s.modPosition k fun x => x.withField field stored }

/-! ### Counters -/

/-- The service of CLEAR_COUNTS (10_notices_stop_requests_and_output_lines.md R188). -/
def serveClearCounts (bs : List Byte) (s : State) : Served :=
  accept (forLanes (lanesOf (byteAt bs 0)) (fun l t => t.modLane l fun x => { x with counters := Counters.zero }) s)

end Sys2Proof.Machine
end

