-- ==== Sys2Proof/Machine/Recipes.lean ====
section
/-! DEFINITION. The recipe store (06_recipes_and_patterns.md): the in-use test, field and pattern writes,
assignment. -/

namespace Sys2Proof.Machine

/-- A slot is in use (R101). -/
def slotInUse (s : State) (i : SlotNo) : Bool :=
  (allLanes.any fun l => ((s.lane l).state != .idle && (s.lane l).slot == i) || (s.lane l).pendingSlot == some i)
    || (s.line.mode == .net && s.line.lineSlot == i && (s.panelOpen || s.line.pendingLineSlot.isSome))
    || s.line.pendingLineSlot == some i

/-- The value stored in a recipe field differs from the value delivered: CLAMPED (R97). -/
def fieldClamps (index : Nat) (v : Int) : Bool := storedFieldValue index v != v

/-- The service of a field of WRITE_RECIPE (R97, R98, R102). -/
def serveRecipeField (slot : SlotNo) (index : Nat) (bs : List Byte) (s : State) : Served :=
  let v := rawFieldValue index bs
  if slotInUse s slot then refuse .inUse s
  else
    { result := .ok
      clamped := fieldClamps index v
      state := s.setRecipe slot ((s.recipe slot).withField index (storedFieldValue index v)) }

/-- The service of an entry of WRITE_PATTERN (R100, R102): bits 0 to 6 of its second byte are the junctions,
every other bit is dropped with CLAMPED (R177). -/
def servePatternEntry (slot : SlotNo) (row : Fin 32) (bs : List Byte) (s : State) : Served :=
  if slotInUse s slot then refuse .inUse s
  else
    let r := s.recipe slot
    { result := .ok
      clamped := byteAt bs 0 != 0 || marksOther (byteAt bs 1)
      state := s.setRecipe slot { r with pattern := r.pattern.set row (junctionsOfByte (byteAt bs 1)) } }

/-! ### Assignment -/

/-- The targets of ASSIGN_RECIPE (R105). -/
inductive AssignTarget where
  | lane (l : LaneNo)
  | line
  deriving DecidableEq, Repr

/-- The target a parameter names: a lane number, or LINE as 80h (R105, R174). -/
def assignTarget (b : Byte) : Option AssignTarget := if b = 0x80 then some .line else (laneNo b).map .lane

/-- The timing a parameter names: NOW 00h (true) or AT_CUT 01h (false) (R174). -/
def assignNow (b : Byte) : Option Bool := if b = 0 then some true else if b = 1 then some false else none

/-- The target does not fit the line mode (R105). -/
def wrongMode (s : State) : AssignTarget → Bool
  | .lane _ => s.line.mode == .net
  | .line => s.line.mode == .rope

/-- NOW is not possible for the target (R105): a lane that is not IDLE, or the line while a panel is open. -/
def nowRefused (s : State) : AssignTarget → Bool
  | .lane l => (s.lane l).state != .idle
  | .line => s.panelOpen

/-- An accepted assignment with timing NOW (R106, R107). -/
def assignAtOnce (t : AssignTarget) (slot : SlotNo) (s : State) : State :=
  match t with
  | .lane l =>
    State.raise .recipe (laneBit l) (s.modLane l fun x => { x with slot := slot, pendingSlot := none })
  | .line => lineSwitch slot s

/-- An accepted assignment with timing AT_CUT (R108). -/
def assignAtCut (t : AssignTarget) (slot : SlotNo) (s : State) : State :=
  match t with
  | .lane l => s.modLane l fun x => { x with pendingSlot := some slot }
  | .line => { s with line := { s.line with pendingLineSlot := some slot } }

/-- The service of ASSIGN_RECIPE (R105 to R108), its checks in order. -/
def serveAssignRecipe (bs : List Byte) (s : State) : Served :=
  match assignTarget (byteAt bs 0), slotNo (byteAt bs 1), assignNow (byteAt bs 2) with
  | some t, some slot, some now =>
    if wrongMode s t then refuse .state s
    else if (s.recipe slot).consistent = false then refuse .range s
    else if now then (if nowRefused s t then refuse .state s else accept (assignAtOnce t slot s))
    else accept (assignAtCut t slot s)
  | _, _, _ => refuse .range s

end Sys2Proof.Machine
end

