-- ==== Sys2Proof/Machine/Tally.lean ====
section
/-! DEFINITION. Length tallies (02_length_tallies.md): the quadrature decoders, the counts of the wheels and
of the draw roller with the events they cause, the geometry and the wheel factor. -/

namespace Sys2Proof.Machine

/-! ### Quadrature decoders -/

/-- The pair after a forward change (R24). -/
def pairForward (q : Pair) : Pair := (!q.2, q.1)

/-- The pair after a reverse change (R24). -/
def pairReverse (q : Pair) : Pair := (q.2, !q.1)

/-- The pair after a change in one direction. -/
def pairStep (d : Direction) (q : Pair) : Pair :=
  match d with
  | .forward => pairForward q
  | .reverse => pairReverse q

/-- The pair after a change of both lines together (R24). -/
def pairBoth (q : Pair) : Pair := (!q.1, !q.2)

/-- Change the reference pair of a position's wheel decoder. -/
def State.modWheel (s : State) (k : PosNo) (f : Pair → Pair) : State :=
  { s with inputs := { s.inputs with wheels := s.inputs.wheels.set k (f s.inputs.wheels[k]) } }

/-- Change the reference pair of the draw decoder. -/
def State.modDraw (s : State) (f : Pair → Pair) : State :=
  { s with inputs := { s.inputs with draw := f s.inputs.draw } }

/-- A change of both lines gives no count; the decoder takes the new pair as its reference (R24). -/
def bothLines (d : Decoder) (s : State) : State :=
  match d with
  | .wheel k => s.modWheel k pairBoth
  | .draw => s.modDraw pairBoth

/-! ### Events of a lane's count -/

/-- The tests that the watchers of a lane make after a count that moved its tally (R30), and the late
test of its due cut (R144). -/
def laneWatchers (l : LaneNo) (s : State) : State :=
  retestLate (CutWhat.isCoilOf l)
    (coilCutDueIfMet l (spliceOverlongIfMet l (windowEndIfMet l (threadingEndIfMet l s))))

/-- What a count that would pass the ceiling does to the lane, by its state (R29, R20, R16). -/
def tallyLimit (l : LaneNo) (s : State) : State :=
  match (s.lane l).state with
  | .run | .splicing => faultEntry l .tallyLimit false s
  | .fault =>
    if (s.lane l).faultCause = some .tallyLimit then s
    else State.raise .laneState (laneBit l) (s.modLane l fun x => { x with faultCause := some .tallyLimit })
  | .idle | .threading | .stopping => s

/-- A forward count that would pass the ceiling (R29): the tally is held there. The window end that the same
count may meet and the limit come in either order (R57, R58): a free value (assumption log 5). A tally
that stood at the ceiling is not moved, and no watcher tests it. -/
def countPastCeiling (l : LaneNo) (s : State) : State :=
  let t := s.modLane l fun x => { x with tally := tallyCeiling }
  if (s.lane l).tally = tallyCeiling then tallyLimit l t
  else if windowMet l t then
    if t.freeOrder then laneWatchers l (tallyLimit l (windowEnd l (t.useFree 1)))
    else laneWatchers l (tallyLimit l (t.useFree 1))
  else laneWatchers l (tallyLimit l t)

/-- A forward count at a lane that counts (R27, R29). -/
def laneForward (l : LaneNo) (k : Nat) (s : State) : State :=
  if (s.lane l).tally + k ≤ tallyCeiling then
    laneWatchers l (s.modLane l fun x => { x with tally := x.tally + k })
  else countPastCeiling l s

/-- A reverse count at a lane that counts (R28): floored at 0; a tally at 0 is not moved. The watchers test the
moved tally as R30 and R31 say for a reverse count too, although R28 says that a reverse count leaves state,
fault_cause and counters: after a switch (R111) to a smaller thread_mm or splice_max_mm it may end threading or
find a splice overlong (DESIGN CHOICE, assumption log 29; unsafe). -/
def laneReverse (l : LaneNo) (k : Nat) (s : State) : State :=
  if (s.lane l).tally = 0 then s
  else laneWatchers l (s.modLane l fun x => { x with tally := x.tally - k })

/-- An edge of a position reaches the lane that is mapped to it (R10). -/
def atMappedLane (k : PosNo) (f : LaneNo → State → State) (s : State) : State :=
  match (s.position k).mappedLane with
  | none => s
  | some l => f l s

/-- A wheel count of a position at its lane: in IDLE it is ignored (R10). -/
def laneCount (d : Direction) (kf : Nat) (l : LaneNo) (s : State) : State :=
  if (s.lane l).state.counts then
    match d with
    | .forward => laneForward l kf s
    | .reverse => laneReverse l kf s
  else s

/-- The sign of a count (R24). -/
def directionSign : Direction → Int
  | .forward => 1
  | .reverse => -1

/-- A wheel count of a position (R10, R24, R27, R28): the decoder's reference, the calibration record, and
the mapped lane's tally with its events. The count reaches the record before the events it causes
(assumption log 14). -/
def wheelCount (d : Direction) (k : PosNo) (s : State) : State :=
  atMappedLane k (laneCount d (s.position k).k)
    (calCount k (directionSign d) (s.modWheel k (pairStep d)))

/-- TALLY_LIMIT_REACHED as an event of its own: a forward count of the lane's position that would pass the
ceiling; nothing when the next forward count would not. -/
def tallyLimitIfMet (l : LaneNo) (s : State) : State :=
  match (s.lane l).position with
  | none => s
  | some k =>
    if (s.lane l).state.counts ∧ tallyCeiling < (s.lane l).tally + (s.position k).k then countPastCeiling l s
    else s

/-! ### Pulses of a position -/

/-- A flyer pulse of a position (R25, R56). -/
def positionFlyer (k : PosNo) (s : State) : State := atMappedLane k flyerPulse s

/-- A rising capstan edge of a position: a pulse of the open window, and an edge of pass A (R25, R45, R56). -/
def positionCapstanRising (k : PosNo) (s : State) : State := calRising k (atMappedLane k capstanPulse s)

/-! ### The draw -/

/-- The row event and the timeout of one draw count; when both are met, either may come first: a free
value (R125; assumption log 6). -/
def drawRowEvents (s : State) : State :=
  if rowDueMet s && rowTimeoutMet s then
    if s.freeOrder then rowTimeoutIfMet (rowFallsDue (s.useFree 1))
    else rowFallsDue (rowTimeoutIfMet (s.useFree 1))
  else rowFallsDueIfMet (rowTimeoutIfMet s)

/-- The tests made after every draw count (R33): rows, timeout, tail, and the late test of a panel cut. -/
def drawWatchers (s : State) : State :=
  retestLate (fun w => !w.isCoil) (tailReachedIfMet (drawRowEvents s))

/-- The draw tally after a count (R32): between its floor and its ceiling. -/
def drawAfter (d : Direction) (tally k : Nat) : Nat :=
  match d with
  | .forward => min tallyCeiling (tally + k)
  | .reverse => tally - k

/-- A draw count (R32, R33). -/
def drawCount (d : Direction) (s : State) : State :=
  let t := s.modDraw (pairStep d)
  drawWatchers { t with line := { t.line with drawTally := drawAfter d t.line.drawTally t.line.kDraw } }

/-! ### Geometry and factor -/

/-- The service of SET_GEOMETRY (R34). -/
def serveSetGeometry (bs : List Byte) (s : State) : Served :=
  let dKnot := beAt bs 0 3
  let dCut := beAt bs 3 3
  let kDraw := beAt bs 6 3
  if s.allIdle = false then refuse .state s
  else
    { result := .ok
      clamped := clampDistance dKnot != dKnot || clampDistance dCut != dCut || clampFactor kDraw != kDraw
      state := { s with
        line := { s.line with
          dKnot := clampDistance dKnot, dCut := clampDistance dCut, kDraw := clampFactor kDraw } } }

/-- The service of SET_FACTOR (R37): a K of 0 leaves K unchanged. -/
def serveSetFactor (bs : List Byte) (s : State) : Served :=
  match posNo (byteAt bs 0) with
  | none => refuse .range s
  | some k =>
    let v := beAt bs 1 3
    let lock := byteAt bs 4 != 0
    if (s.cal k).running then refuse .state s
    else
      { result := .ok
        clamped := v != 0 && clampFactor v != v
        state := s.modPosition k fun x => { x with k := if v = 0 then x.k else clampFactor v, kLocked := lock } }

end Sys2Proof.Machine
end

