-- ==== Sys2Proof/Machine/Stops.lean ====
section
/-! DEFINITION. Interest masks, the acknowledgement of stop reasons, and the forcing of the request lines
(10_notices_stop_requests_and_output_lines.md R182, R186, R190). -/

namespace Sys2Proof.Machine

/-- The service of SET_INTEREST at a port (R182): bits 0 to 8 give the mask, a higher bit is dropped with
CLAMPED. -/
def serveSetInterest (p : PortNo) (bs : List Byte) (s : State) : Served :=
  let v := beAt bs 0 2
  { result := .ok
    clamped := decide (512 ≤ v)
    state := s.modPort p fun P => { P with interest := BitVec.ofNat 9 v } }

/-- Some due cut is late (R186): an entry or a deferred cut has its late field set. -/
def CutUnit.anyLate (u : CutUnit) : Bool := u.list.any (·.late) || u.deferred.any (·.late)

/-- The recorded lanes that are still in FAULT. -/
def stillFaulted (s : State) : LaneSet :=
  laneSetOf ((lanesOf s.stops.faultRecord).filter fun l => (s.lane l).state == .fault)

/-- ACK_STOP judges LANE_FAULT (R186). -/
def ackLaneFault (named : Bool) (s : State) (u : StopUnit) : StopUnit :=
  if named && u.laneFault then
    { u with faultRecord := stillFaulted s, laneFault := stillFaulted s != 0 }
  else u

/-- The stop unit after an ACK_STOP of a set of reasons (R186). -/
def ackedStops (named : Byte) (s : State) : StopUnit :=
  ackLaneFault (named.getLsbD 3) s
    { s.stops with
      rowOverrun := s.stops.rowOverrun && !named.getLsbD 0
      cutLate := s.stops.cutLate && !(named.getLsbD 1 && !s.cuts.anyLate)
      feed := s.stops.feed && !named.getLsbD 2 }

/-- The service of ACK_STOP (R186): STOP is raised with the lanes removed from the fault record, when
anything was removed. -/
def serveAckStop (bs : List Byte) (s : State) : Served :=
  let named := byteAt bs 0
  let u := ackedStops named s
  let t := { s with stops := u }
  { result := .ok
    clamped := decide (16 ≤ named.toNat)
    state := if u = s.stops then t
             else State.raise .stop (s.stops.faultRecord &&& ~~~u.faultRecord) t }

/-- The setting a parameter names (R174). -/
def forcingOf (b : Byte) : Option Forcing :=
  if b = 0 then some .auto else if b = 1 then some .low else if b = 2 then some .high else none

/-- The forcing after the setting of a line named by its code (R174); none for no line. -/
def forceLine (line : Byte) (f : Forcing) (x : LineForcing) : Option LineForcing :=
  if line = 0 then some { x with rowReq := f }
  else if line = 1 then some { x with cutReq := f }
  else if line = 2 then some { x with stopReq := f }
  else none

/-- The service of FORCE_LINE (R190). -/
def serveForceLine (bs : List Byte) (s : State) : Served :=
  match forcingOf (byteAt bs 1) with
  | none => refuse .range s
  | some f =>
    match forceLine (byteAt bs 0) f s.forcing with
    | none => refuse .range s
    | some x => accept { s with forcing := x }

end Sys2Proof.Machine
end

