-- ==== Sys2Proof/Machine/Reads.lean ====
section
/-! DEFINITION. The responses of the read commands: the encodings of R175, and each read's fields in the
order its rule lists them (R52, R76, R93, R136, R156, R158, R169 to R171, R178, R179, R181). -/

namespace Sys2Proof.Machine

/-! ### Encodings (R175) -/

/-- A flag or a pin level. -/
def encFlag (b : Bool) : List Byte := [if b then 1 else 0]

/-- An unsigned number in n bytes. -/
def encNat (n v : Nat) : List Byte := beBytes n v

/-- An unsigned number in n bytes, or none as all ones. -/
def encOpt (n : Nat) (v : Option Nat) : List Byte :=
  match v with
  | some v => beBytes n v
  | none => List.replicate n 0xFF

/-- A lane, position or slot number in one byte, or none. -/
def encFin {m : Nat} (v : Option (Fin m)) : List Byte := encOpt 1 (v.map (·.val))

/-- A length or coordinate in micrometres. -/
def encUm (v : Nat) : List Byte := beBytes 6 v

/-- A signed wheel count in four bytes, two's complement; one outside the range of four bytes is sent as
the manual leaves open (assumption log 8). -/
def encCount (v : Option Int) : List Byte :=
  match v with
  | none => beBytes 4 0x80000000
  | some i =>
    if -2147483648 ≤ i ∧ i ≤ 2147483647 then beBytes 4 (BitVec.ofInt 32 i).toNat
    else beBytes 4 (Config.unstatedCount i).toNat

/-- A trim in one byte, two's complement. -/
def encTrim (v : Int) : List Byte := [BitVec.ofInt 8 v]

/-- A junction set in one byte. -/
def encJunctions (js : JunctionSet) : Byte := js.setWidth 8

/-- A result code (R167). -/
def Result.code : Result → Byte
  | .ok => 0x00 | .role => 0x01 | .state => 0x02 | .range => 0x03 | .inUse => 0x04 | .conflict => 0x05
  | .notDue => 0x06 | .late => 0x07 | .order => 0x08 | .empty => 0x09 | .incomplete => 0x0A

/-- Lane states. -/
def LaneState.code : LaneState → Byte
  | .idle => 0 | .threading => 1 | .run => 2 | .splicing => 3 | .fault => 4 | .stopping => 5

/-- Fault causes; none is 00h. -/
def faultCauseCode : Option FaultCause → Byte
  | none => 0
  | some .trimLimit => 1
  | some .wheelSlip => 2
  | some .spliceOverlong => 3
  | some .tallyLimit => 4

/-- Line modes. -/
def LineMode.code : LineMode → Byte
  | .rope => 0 | .net => 1

/-- Roles. -/
def roleCode : Role → Byte
  | .twist => 0 | .knot => 1 | .pack => 2 | .supervise => 3

/-- Calibration states. -/
def CalState.code : CalState → Byte
  | .idle => 0 | .passA => 1 | .passB => 2 | .done => 3

/-- Calibration results. -/
def calResultCode : Option CalResult → Byte
  | some .pass => 1 | some .fail => 2 | some .aborted => 3 | none => 0xFF

/-- Calibration causes. -/
def calCauseCode : Option CalCause → Byte
  | some .noCount => 1 | some .range => 2 | some .tolerance => 3 | none => 0xFF

/-- Panel states. -/
def PanelState.code : PanelState → Byte
  | .none => 0 | .laying => 1 | .finishing => 2 | .cutWait => 3

/-- Coil plan states. -/
def PlanState.code : PlanState → Byte
  | .none => 0 | .watching => 1 | .due => 2 | .deferredEnd => 3

/-- Cut reasons. -/
def CutReason.code : CutReason → Byte
  | .normal => 0 | .short => 1 | .endCut => 2

/-- Entry states. -/
def EntryState.code : EntryState → Byte
  | .held => 1 | .requested => 2

/-- Mark kinds. -/
def MarkKind.code : MarkKind → Byte
  | .splice => 1 | .twistZone => 2 | .slip => 3 | .pitch => 4 | .missedKnot => 5 | .extraKnot => 6

/-- Senses; 0 when absent (R178). -/
def senseCode : Option Sense → Byte
  | some .high => 1 | some .low => 2 | some .both => 3 | none => 0

/-- Forcing settings. -/
def Forcing.code : Forcing → Byte
  | .auto => 0 | .low => 1 | .high => 2

/-! ### Responses -/

/-- What a served read prepares: its result, the bytes after the result byte, and the state. -/
structure ReadOut where
  result : Result
  body : List Byte
  state : State
  deriving DecidableEq, Repr

/-- A refused read: its response is the result byte alone (R166). -/
def readRefused (r : Result) (s : State) : ReadOut := { result := r, body := [], state := s }

/-- A read done as asked. -/
def readOk (body : List Byte) (s : State) : ReadOut := { result := .ok, body := body, state := s }

/-- A coil plan: state, plan_pos, reason. -/
def encPlan (p : CoilPlan) : List Byte := [p.state.code] ++ encUm p.planPos ++ [p.reason.code]

/-- READ_STATUS (R169): port, role, the command it closed, last command, last result, CLAMPED. -/
def readStatus (p : PortNo) (s : State) : ReadOut :=
  let P := s.port p
  readOk ([BitVec.ofNat 8 p.val, roleCode P.role, P.statusOf.getD 0xFF, P.lastCommand.getD 0xFF,
    P.lastResult.code] ++ encFlag P.clamped) s

/-- READ_NOTICES (R181): the kinds present and nine lane sets; the port's set is emptied. -/
def readNotices (p : PortNo) (s : State) : ReadOut :=
  let n := (s.port p).notices
  readOk (encNat 2 n.present.toNat ++ n.lanes.toList) (s.modPort p fun P => { P with notices := NoticeSet.empty })

/-- The fields of READ_LANE (R170), in its order. -/
def laneBytes (s : State) (l : LaneNo) : List Byte :=
  let x := s.lane l
  [BitVec.ofNat 8 l.val, x.state.code, faultCauseCode x.faultCause] ++ encFin x.position
    ++ encFin (some x.slot) ++ encFin x.pendingSlot
    ++ encUm x.um ++ encNat 1 (x.tally % 256) ++ encUm (s.cutterCoord l) ++ encUm (s.knotterOf x.um)
    ++ encUm x.coilStart ++ encPlan x.plan
    ++ encTrim x.trim ++ encOpt 3 x.lastTpm ++ encUm x.windowStart ++ encNat 3 x.windowPulses
    ++ encNat 3 x.capstanPulses ++ encNat 1 x.periodIndex ++ encNat 1 x.highCount ++ encNat 1 x.lowCount
    ++ encFlag x.limitStrike ++ encNat 1 x.slipRun
    ++ encNat 1 x.pitchRun ++ encOpt 6 x.spliceStart ++ encOpt 6 x.lastRowTally
    ++ encFlag x.trimLimited ++ encFlag x.marksLost
    ++ encNat 2 x.counters.windows ++ encNat 2 x.counters.high ++ encNat 2 x.counters.low
    ++ encNat 2 x.counters.splices ++ encNat 2 x.counters.slips

/-- READ_LANE (R170). -/
def readLane (bs : List Byte) (s : State) : ReadOut :=
  match laneNo (byteAt bs 0) with
  | none => readRefused .range s
  | some l => readOk (laneBytes s l) s

/-- The set of slots in use, bit n for slot n (R101, R177). -/
def slotsInUse (s : State) : Byte :=
  (BitVec.ofBool (slotInUse s 3) ++ BitVec.ofBool (slotInUse s 2) ++ BitVec.ofBool (slotInUse s 1)
    ++ BitVec.ofBool (slotInUse s 0)).setWidth 8

/-- READ_LINE (R171). -/
def readLine (s : State) : ReadOut :=
  readOk ([s.line.mode.code] ++ encUm s.drawUm ++ encNat 1 (s.line.drawTally % 256)
    ++ encNat 3 s.line.dKnot ++ encNat 3 s.line.dCut ++ encNat 4 s.line.kDraw
    ++ encFin (some s.line.lineSlot) ++ encFin s.line.pendingLineSlot ++ [slotsInUse s]
    ++ [s.stops.bits, s.stops.faultRecord]
    ++ encFlag s.rowReq ++ [s.forcing.rowReq.code] ++ encFlag s.cutReq ++ [s.forcing.cutReq.code]
    ++ encFlag s.stopReq ++ [s.forcing.stopReq.code]) s

/-- The presence byte of a mark entry (R178): extent, sense, row, junction. -/
def markPresence (m : Mark) : Byte :=
  (BitVec.ofBool m.junction.isSome ++ BitVec.ofBool m.row.isSome ++ BitVec.ofBool m.sense.isSome
    ++ BitVec.ofBool m.extent.isSome).setWidth 8

/-- A mark entry of 19 bytes (R178). -/
def encMark (m : Mark) : List Byte :=
  [m.kind.code, BitVec.ofNat 8 m.lane.val, markPresence m] ++ encUm m.position ++ encUm (m.extent.getD 0)
    ++ [senseCode m.sense] ++ encNat 2 (m.row.getD 0) ++ encNat 1 (m.junction.getD 0)

/-- READ_MARKS (R93, R178): the summary, the count, and the marks from the first index on. -/
def readMarks (bs : List Byte) (s : State) : ReadOut :=
  match laneNo (byteAt bs 0) with
  | none => readRefused .range s
  | some l =>
    let first := (byteAt bs 1).toNat
    let ms := s.markList l
    if 96 ≤ first then readRefused .range s
    else
      readOk ([BitVec.ofNat 8 l.val] ++ encUm (s.lane l).coilStart ++ encNat 1 ms.length
        ++ encNat 1 s.freeEntries ++ encFlag (s.lane l).marksLost ++ encNat 1 (ms.length - first)
        ++ (ms.drop first).flatMap encMark) s

/-- The flags byte of a package (R179). -/
def PackageFlags.bits (f : PackageFlags) : Byte :=
  BitVec.ofBool f.rowsSkipped ++ BitVec.ofBool f.trimLimited ++ BitVec.ofBool f.marksTruncated
    ++ BitVec.ofBool f.marksIncomplete ++ BitVec.ofBool f.spliceExcess ++ BitVec.ofBool f.overlength
    ++ BitVec.ofBool f.endCut ++ BitVec.ofBool f.short

/-- The presence byte of a mark list entry (R179): extent, row, junction. -/
def packageMarkPresence (m : PackageMark) : Byte :=
  (BitVec.ofBool m.junction.isSome ++ BitVec.ofBool m.row.isSome
    ++ BitVec.ofBool m.extent.isSome).setWidth 8

/-- A mark list entry of 14 bytes (R179). -/
def encPackageMark (m : PackageMark) : List Byte :=
  [m.kind.code, BitVec.ofNat 8 m.lane.val, packageMarkPresence m] ++ encNat 4 m.offset
    ++ encNat 4 (m.extent.getD 0) ++ encNat 2 (m.row.getD 0) ++ encNat 1 (m.junction.getD 0)

/-- The kind of a package (R179). -/
def PackageKind.code : PackageKind → Byte
  | .coil => 1 | .panel => 2

/-- A package record (R179). -/
def encPackage (x : Package) : List Byte :=
  encNat 2 x.number ++ [x.kind.code] ++ encFin x.lane ++ encFin (some x.slot) ++ [x.flags.bits]
    ++ encNat 2 (x.rows.getD 0) ++ encNat 1 x.lengths.length ++ x.lengths.flatMap (encNat 4)
    ++ encNat 1 x.totals.splice ++ encNat 1 x.totals.twistZone ++ encNat 1 x.totals.slip
    ++ encNat 1 x.totals.pitch ++ encNat 1 x.totals.missedKnot ++ encNat 1 x.totals.extraKnot
    ++ encNat 1 x.markList.length ++ x.markList.flatMap encPackageMark

/-- READ_PACKAGE (R156, R179): EMPTY with an empty queue. -/
def readPackage (s : State) : ReadOut :=
  match s.cuts.queue with
  | [] => readRefused .empty s
  | x :: _ => readOk (encNat 1 s.cuts.queue.length ++ encPackage x) s

/-- The progress of the open window, 0 outside RUN (R76). -/
def windowProgress (x : Lane) : Nat := if x.state = .run then x.um - x.windowStart else 0

/-- READ_TRIM (R76), its fields in order. -/
def readTrim (bs : List Byte) (s : State) : ReadOut :=
  match laneNo (byteAt bs 0) with
  | none => readRefused .range s
  | some l =>
    let x := s.lane l
    let r := s.activeRecipe l
    readOk ([x.state.code] ++ encTrim x.trim ++ encTrim r.trimMin ++ encTrim r.trimMax ++ encOpt 3 x.lastTpm
      ++ encNat 1 x.periodIndex ++ encNat 1 x.highCount ++ encNat 1 x.lowCount ++ encFlag x.limitStrike
      ++ encNat 1 x.slipRun ++ encFlag x.trimLimited ++ encUm (windowProgress x)) s

/-- A row record in READ_ROW (R136). -/
def encRow (x : RowRecord) : List Byte :=
  encNat 2 x.row ++ [encJunctions x.expected] ++ encUm x.dueDraw ++ encUm x.timeoutDraw
    ++ x.captured.flatMap encUm

/-- READ_ROW (R136), its fields in order; a field whose condition does not hold is none (R175). -/
def readRow (s : State) : ReadOut :=
  let p := s.panel
  readOk ([p.state.code] ++ encOpt 1 p.netWidth ++ encUm p.drawStart ++ encNat 2 p.nextRow
    ++ encOpt 2 p.lastClosedRow ++ encFlag p.tailReached ++ encFlag p.halt ++ encNat 2 p.rowsKnotted
    ++ encNat 2 p.rowsTimedOut ++ encNat 2 p.rowsSkipped ++ encUm s.drawUm
    ++ encOpt 6 (if p.state = .laying then some (rowDue s p.nextRow) else none)
    ++ encOpt 6 (if s.panelOpen then some (tailEnd s) else none)
    ++ encNat 1 s.rows.length ++ s.rows.flatMap encRow) s

/-- The kind and lane of a cut: PANEL sends lane none (R175). -/
def encWhatLane (w : CutWhat) : List Byte :=
  match w with
  | .coil l _ => [1, BitVec.ofNat 8 l.val]
  | .panel _ => [2, 0xFF]

/-- The panel's lanes of a cut: an empty set for COIL (R175). -/
def CutWhat.panelLanes : CutWhat → LaneSet
  | .coil _ _ => 0
  | .panel ls => ls

/-- The reason of a cut: none for PANEL (R175). -/
def CutWhat.reasonCode : CutWhat → Byte
  | .coil _ r => r.code
  | .panel _ => 0xFF

/-- A cut entry in READ_CUTS (R158). -/
def encEntry (e : CutEntry) : List Byte :=
  encWhatLane e.what ++ [e.what.panelLanes, e.what.reasonCode] ++ encUm e.duePos ++ [e.state.code]
    ++ encFlag e.late

/-- A deferred cut in READ_CUTS (R158): kind, lane and due_pos. -/
def encDeferred (d : DeferredCut) : List Byte := encWhatLane d.what ++ encUm d.duePos

/-- READ_CUTS (R158), its fields in order. -/
def readCuts (s : State) : ReadOut :=
  let u := s.cuts
  readOk (encNat 1 u.queue.length ++ encNat 1 u.freePlaces ++ encNat 2 u.counter
    ++ encNat 1 u.list.length ++ u.list.flatMap encEntry
    ++ encNat 1 u.deferred.length ++ u.deferred.flatMap encDeferred
    ++ allLanes.flatMap fun l => encPlan (s.lane l).plan) s

/-- A position record in READ_CAL (R52). -/
def encPosition (x : Position) : List Byte :=
  encFlag x.inService ++ encNat 4 x.k ++ encFlag x.kLocked ++ encNat 3 x.cRef ++ encNat 1 x.pc
    ++ encNat 1 x.np ++ encFin x.mappedLane

/-- A calibration record in READ_CAL (R42, R52). -/
def encCal (c : CalRecord) : List Byte :=
  [c.state.code] ++ encFlag c.started ++ encFin c.lane ++ encOpt 1 c.n ++ encOpt 1 c.calTol
    ++ encNat 2 c.edges ++ encCount (some c.nRun) ++ encCount c.nA ++ encCount c.nB
    ++ encOpt 6 c.kA ++ encOpt 6 c.kB ++ encOpt 6 c.k ++ [calResultCode c.result, calCauseCode c.cause]
    ++ encFlag c.stored

/-- READ_CAL (R52). -/
def readCal (bs : List Byte) (s : State) : ReadOut :=
  match posNo (byteAt bs 0) with
  | none => readRefused .range s
  | some k => readOk (encPosition (s.position k) ++ encCal (s.cal k)) s

end Sys2Proof.Machine
end

