-- ==== Sys2Proof/Machine/Ports.lean ====
section
/-! DEFINITION. The station ports and the record-store arbiter (09_station_ports.md R160 to R173): command
and data bytes, the services of the steps, the turn, soft reset, transfers, whole commands. -/

namespace Sys2Proof.Machine

/-! ### A port's command -/

/-- The open command is closed (R164): what was not served or not sent is dropped. The bits of a byte being
assembled are the caller's (R164, R172). -/
def Port.close (P : Port) : Port :=
  { P with phase := .none, openCommand := none, stepBytes := [], context := none, response := [],
           respPtr := 0, statusOf := none }

/-- A step of the port waits for the arbiter (R163). -/
def Port.isWaiting (P : Port) : Bool := P.phase == .waiting

/-- The command that the open code names. -/
def Port.command (P : Port) : Option Command := P.openCommand.bind Command.ofCode

/-- The record of a port that has opened a command other than READ_STATUS, with its first result and phase
(R161). -/
def Port.opened (b : Byte) (r : Result) (ph : Phase) (P : Port) : Port :=
  { P.close with openCommand := some b, lastCommand := some b, lastResult := r, clamped := false, phase := ph }

/-- READ_STATUS leaves the last command, the last result and CLAMPED, and keeps the code of the command
that it closed (R161, R169). -/
def Port.openedStatus (P : Port) : Port :=
  { P.close with openCommand := some Command.readStatus.code, statusOf := P.openCommand, phase := .waiting }

/-- The phase of a command just opened: a command without parameters is complete at once (R161). -/
def firstPhase (c : Command) : Phase := if c.firstBytes = 0 then .waiting else .parameters

/-- A port opens a command that its code names, if its role permits it (R161). -/
def Port.openNamed (c : Command) (P : Port) : Port :=
  match c with
  | .readStatus => P.openedStatus
  | c => if c.permits P.role then P.opened c.code .incomplete (firstPhase c) else P.opened c.code .role .discarding

/-- A command byte at a port (R161): the open command is closed, and the one named is opened or refused. -/
def Port.takeCommand (b : Byte) (P : Port) : Port :=
  match Command.ofCode b with
  | none => P.opened b .range .discarding
  | some c => P.openNamed c

/-- The bytes that the step being assembled takes (R163, R174, R176, R177). -/
def Port.stepWidth (P : Port) : Nat :=
  match P.context with
  | some (.position _ field) => field.bytes
  | some (.recipe _ index) => recipeFieldBytes index
  | some (.pattern _ _) => 2
  | none =>
    match P.command with
    | some c => c.firstBytes
    | none => 0

/-- A data byte in PARAMETERS joins the step, which is complete with its last byte (R163). -/
def Port.addByte (b : Byte) (P : Port) : Port :=
  { P with
    stepBytes := P.stepBytes ++ [b]
    phase := if P.stepWidth ≤ P.stepBytes.length + 1 then .waiting else .parameters }

/-- A data byte at a port (R161, R163, R166): in STREAMING the response pointer advances, up to the end of
the response (assumption log 20). -/
def Port.takeData (b : Byte) (P : Port) : Port :=
  match P.phase with
  | .parameters => P.addByte b
  | .streaming => { P with respPtr := min P.response.length (P.respPtr + 1) }
  | .none | .waiting | .discarding => P

/-- A completed byte at a port whose step does not wait. -/
def Port.takeByte (h : HeldByte) (P : Port) : Port :=
  if h.isCommand then P.takeCommand h.byte else P.takeData h.byte

/-! ### What a service leaves on the port (R163, R167) -/

/-- After an action step. -/
def finishAction (p : PortNo) (r : Served) : State :=
  r.state.modPort p fun P =>
    { P with phase := .discarding, stepBytes := [], lastResult := r.result, clamped := P.clamped || r.clamped }

/-- A response is prepared: the result byte and the body, from its first byte (R166). -/
def Port.stream (r : Result) (body : List Byte) (P : Port) : Port :=
  { P with phase := .streaming, stepBytes := [], response := r.code :: body, respPtr := 0 }

/-- After a read step. -/
def finishRead (p : PortNo) (r : ReadOut) : State :=
  r.state.modPort p fun P => { P.stream r.result r.body with lastResult := r.result }

/-- After READ_STATUS, which leaves the last result (R169). -/
def finishStatus (p : PortNo) (r : ReadOut) : State := r.state.modPort p (Port.stream r.result r.body)

/-- After the header of a field-wise command: its context, or the refusal RANGE. -/
def finishHeader (p : PortNo) (ctx : Option FieldContext) (s : State) : State :=
  s.modPort p fun P =>
    match ctx with
    | some c => { P with phase := .parameters, stepBytes := [], context := some c }
    | none => { P with phase := .discarding, stepBytes := [], lastResult := .range }

/-- The context after a field that was stored (R6, R98, R100): none after the last field; the row pointer
wraps from 31 to 0. -/
def FieldContext.next : FieldContext → Option FieldContext
  | .position k field => (nextPositionField field).map (.position k)
  | .recipe slot index => if index < 28 then some (.recipe slot (index + 1)) else none
  | .pattern slot row => some (.pattern slot (row + 1))

/-- After a field or an entry. -/
def finishField (p : PortNo) (ctx : FieldContext) (r : Served) : State :=
  let next := if r.result = .ok then ctx.next else none
  r.state.modPort p fun P =>
    { P with
      phase := if next.isSome then .parameters else .discarding
      stepBytes := [], context := next, lastResult := r.result, clamped := P.clamped || r.clamped }

/-! ### Headers and fields -/

/-- The header of SET_POSITION (R6): the position number. -/
def positionHeader (bs : List Byte) : Option FieldContext :=
  (posNo (byteAt bs 0)).map fun k => .position k .inService

/-- The header of WRITE_RECIPE (R98): a slot 0 to 3 and a first index 0 to 28. -/
def recipeHeader (bs : List Byte) : Option FieldContext :=
  match slotNo (byteAt bs 0) with
  | some slot => if (byteAt bs 1).toNat ≤ 28 then some (.recipe slot (byteAt bs 1).toNat) else none
  | none => none

/-- The header of WRITE_PATTERN (R100): a slot 0 to 3 and a first row 0 to 31. -/
def patternHeader (bs : List Byte) : Option FieldContext :=
  match slotNo (byteAt bs 0) with
  | some slot =>
    if h : (byteAt bs 1).toNat < 32 then some (.pattern slot ⟨(byteAt bs 1).toNat, h⟩) else none
  | none => none

/-- The service of a field or an entry. -/
def serveField (ctx : FieldContext) (bs : List Byte) (s : State) : Served :=
  match ctx with
  | .position k field => servePositionField k field bs s
  | .recipe slot index => serveRecipeField slot index bs s
  | .pattern slot row => servePatternEntry slot row bs s

/-! ### Soft reset -/

/-- A lane after soft reset (R23, R54, R77, R95, R104, R159): its position, slot and trim are kept. last_row_tally is
none, as R23 lists it; R112 says in passing that it becomes 0 (DESIGN CHOICE, assumption log 27; unsafe). -/
def Lane.softReset (x : Lane) : Lane :=
  { Lane.reset x.position with slot := x.slot, trim := x.trim }

/-- The outgoing byte (R160, R166). -/
def Port.outgoing (P : Port) : Byte :=
  if P.phase = .streaming then P.response.getD P.respPtr 0 else 0

/-- A port other than the one that gave SOFT_RESET: its command is closed, its byte goes on assembling, its
notices are emptied; a response stops, and 00h is sent from the next byte (R172, R184). -/
def Port.softReset (P : Port) : Port :=
  { P.close with
    lastOut := if P.phase = .streaming ∧ P.partialBits ≠ [] then some P.outgoing else P.lastOut
    notices := NoticeSet.empty }

/-- The port that gave SOFT_RESET: its command closes with result OK (R172). -/
def Port.softResetOwn (P : Port) : Port := { P.softReset with partialBits := [], lastOut := none, lastResult := .ok }

/-- The jobs at soft reset (R23, R32, R53, R77, R95, R104, R112, R159, R187): back to a quiet line. The
mode, geometry, line slot, recipes, positions, forcing and package number counter are kept. -/
def softResetJobs (s : State) : State :=
  { s.mapLanes Lane.softReset with
    cals := Vector.replicate 10 CalRecord.reset
    marks := MarkStore.empty
    line := { s.line with drawTally := 0, pendingLineSlot := none }
    panel := Panel.reset
    rows := []
    cuts := { CutUnit.reset with counter := s.cuts.counter }
    stops := StopUnit.empty }

/-- The service of SOFT_RESET (R172). -/
def softReset (p : PortNo) (s : State) : State :=
  ((softResetJobs s).mapPorts Port.softReset).modPort p Port.softResetOwn

/-! ### The arbiter -/

/-- The service of the complete first step of a command: an action, a read, or a header. -/
def serveCommand (p : PortNo) (c : Command) (bs : List Byte) (s : State) : State :=
  match c with
  | .readStatus => finishStatus p (readStatus p s)
  | .readNotices => finishRead p (readNotices p s)
  | .setInterest => finishAction p (serveSetInterest p bs s)
  | .readLane => finishRead p (readLane bs s)
  | .readLine => finishRead p (readLine s)
  | .readMarks => finishRead p (readMarks bs s)
  | .readPackage => finishRead p (readPackage s)
  | .startLane => finishAction p (serveStartLane bs s)
  | .stopLane => finishAction p (serveStopLane bs s)
  | .spliceBegin => finishAction p (serveSpliceBegin bs s)
  | .spliceEnd => finishAction p (serveSpliceEnd bs s)
  | .readTrim => finishRead p (readTrim bs s)
  | .panelStart => finishAction p (servePanelStart s)
  | .panelHalt => finishAction p (servePanelHalt s)
  | .knotDone => finishAction p (serveKnotDone bs s)
  | .readRow => finishRead p (readRow s)
  | .cutDone => finishAction p (serveCutDone bs s)
  | .releasePackage => finishAction p (serveReleasePackage s)
  | .readCuts => finishRead p (readCuts s)
  | .setMode => finishAction p (serveSetMode bs s)
  | .setGeometry => finishAction p (serveSetGeometry bs s)
  | .setPosition => finishHeader p (positionHeader bs) s
  | .setFactor => finishAction p (serveSetFactor bs s)
  | .mapLane => finishAction p (serveMapLane bs s)
  | .writeRecipe => finishHeader p (recipeHeader bs) s
  | .writePattern => finishHeader p (patternHeader bs) s
  | .assignRecipe => finishAction p (serveAssignRecipe bs s)
  | .calibrate => finishAction p (serveCalibrate bs s)
  | .clearLane => finishAction p (serveClearLane bs s)
  | .ackStop => finishAction p (serveAckStop bs s)
  | .clearCounts => finishAction p (serveClearCounts bs s)
  | .forceLine => finishAction p (serveForceLine bs s)
  | .softReset => softReset p s
  | .readCal => finishRead p (readCal bs s)

/-- The service of a port's waiting step (R163, R168); the turn pointer then names the port. A waiting port
always has a command that its code names; one that had none would go back to no command (assumption log
22). -/
def serveStep (p : PortNo) (s : State) : State :=
  let P := s.port p
  let t := { s with turn := p }
  match P.context with
  | some ctx => finishField p ctx (serveField ctx P.stepBytes t)
  | none =>
    match P.command with
    | some c => serveCommand p c P.stepBytes t
    | none => t.modPort p Port.close

/-- The ports in the order that follows a turn pointer (R168). -/
def turnOrder (turn : PortNo) : List PortNo := [turn + 1, turn + 2, turn + 3, turn]

/-- The port served next: the first with a waiting step in the order following the turn pointer (R168). -/
def nextWaiting (s : State) : Option PortNo := (turnOrder s.turn).find? fun p => (s.port p).isWaiting

/-- The port takes its held bytes in the order they arrived, until a step of it waits again (R163). -/
def drain (p : PortNo) : List HeldByte → State → State
  | [], s => s
  | h :: hs, s =>
    if (s.port p).isWaiting then s.modPort p fun P => { P with held := h :: hs }
    else drain p hs (s.modPort p (Port.takeByte h))

/-- A port whose step has been served takes its held bytes. -/
def drainHeld (p : PortNo) (s : State) : State :=
  drain p (s.port p).held (s.modPort p fun P => { P with held := [] })

/-- The arbiter serves one waiting step, if there is one (R168). -/
def serveNext (s : State) : State :=
  match nextWaiting s with
  | none => s
  | some q => drainHeld q (serveStep q s)

/-- The arbiter serves waiting steps in turn until the step of port p has been served; its fuel is a bound
on the turns. -/
def serveThrough : Nat → PortNo → State → State
  | 0, _, s => s
  | n + 1, p, s =>
    match nextWaiting s with
    | none => s
    | some q => if q = p then serveNext s else serveThrough n p (serveNext s)

/-- The step that waits at a port, if one does, is served in its turn: after at most three others (R168). -/
def serveWaiting (p : PortNo) (s : State) : State :=
  if (s.port p).isWaiting then serveThrough 4 p s else s

/-! ### Bytes, bits and transfers -/

/-- A byte completes at a port: it is held while a step waits, and taken once that step has been served, or
discarded by another port's SOFT_RESET (R163, R172; assumption log 3). -/
def arrive (p : PortNo) (h : HeldByte) (s : State) : State :=
  if (s.port p).isWaiting then
    drainHeld p (serveWaiting p (s.modPort p fun P => { P with held := P.held ++ [h] }))
  else s.modPort p (Port.takeByte h)

/-- A byte completes: the bit count returns to 0 (R160). A byte row brings its byte whole: the 1 to 7 bits that
were being assembled are dropped and are no part of it (DESIGN CHOICE, assumption log 28). -/
def Port.byteDone (P : Port) : Port := { P with partialBits := [], lastOut := none }

/-- SELn falls: the transfer opens with bit count 0 (R160). At a port whose transfer is open already the row drops
the bits being assembled (DESIGN CHOICE, assumption log 28). -/
def openTransfer (p : PortNo) (s : State) : State :=
  s.modPort p fun P => { P with transferOpen := true, partialBits := [], lastOut := none }

/-- A whole byte completes in an open transfer (R160, R161, R163); one at a closed transfer is not taken. The manual
has bits and no such row: one given within a byte takes that byte's place (DESIGN CHOICE, assumption log 28). -/
def byteInTransfer (p : PortNo) (isCommand : Bool) (b : Byte) (s : State) : State :=
  if (s.port p).transferOpen then
    arrive p { isCommand := isCommand, byte := b } (s.modPort p Port.byteDone)
  else s

/-- The byte of eight bits, the first the most significant (R160). -/
def byteOfBits (bits : List Bool) : Byte :=
  BitVec.ofNat 8 (bits.foldl (fun a b => 2 * a + b.toNat) 0)

/-- A bit joins the byte being assembled; the eighth completes it, and the level of CDn there tells a command
byte (low) from a data byte (R160). -/
def takeBit (p : PortNo) (sdi cdn : Bool) (s : State) : State :=
  let bits := (s.port p).partialBits ++ [sdi]
  if bits.length < 8 then s.modPort p fun P => { P with partialBits := bits }
  else
    arrive p { isCommand := !cdn, byte := byteOfBits bits } (s.modPort p Port.byteDone)

/-- A rising edge of SCKn (R160); one while SELn is high is not taken. A waiting step is served before the
first bit of the next byte (R163). -/
def clockBit (p : PortNo) (sdi cdn : Bool) (s : State) : State :=
  if (s.port p).transferOpen then takeBit p sdi cdn (serveWaiting p s) else s

/-- SELn rises within a byte (R165): the partial byte is discarded, the command stays. -/
def Port.break (P : Port) : Port := { P with transferOpen := false, partialBits := [], lastOut := none }

/-- SELn rises while CDn is low (R164, R165): the transfer ends and its command closes; within a byte it is
a break (assumption log 16). -/
def Port.endTransfer (P : Port) : Port :=
  if P.transferOpen then
    if P.partialBits.isEmpty then { P.close with transferOpen := false } else P.break
  else P

/-- A step of a field-wise command waits at the port: a header, a field or an entry (R163). -/
def Port.fieldStepWaits (P : Port) : Bool := P.isWaiting && (P.context.isSome || P.command.any Command.isFieldWise)

/-- The transfer of a port ends (R164). A header, a field or an entry whose bytes are all in is served first,
so that it is stored or refused (R98, R99, R100, R6); an action that has not been served has no effect
(R164; assumption log 3). -/
def endTransfer (p : PortNo) (s : State) : State :=
  let P := s.port p
  let t := if P.transferOpen && P.partialBits.isEmpty && P.fieldStepWaits then serveWaiting p s else s
  t.modPort p Port.endTransfer

/-- SELn rises within a byte (R165); at a byte boundary this row names no event (assumption log 16). -/
def Port.breakTransfer (P : Port) : Port :=
  if P.transferOpen && !P.partialBits.isEmpty then P.break else P

/-- SELn rises while CDn is high (R165): a pause at a byte boundary, a break within a byte; the command
stays open in its phase (assumption log 16). -/
def Port.pauseTransfer (P : Port) : Port := if P.transferOpen then P.break else P

/-! ### Output on SDOn -/

/-- The bit that SDOn presents for the next rising edge of SCKn, most significant first; none for high
impedance while SELn is high (R160). A byte within which a response was stopped goes out whole (R172). -/
def Port.sdo (P : Port) : Option Bool :=
  if P.transferOpen then some ((P.lastOut.getD P.outgoing).getLsbD (7 - P.partialBits.length)) else none

/-! ### Whole commands and whole fields (assumption log 2, 17) -/

/-- Every byte of a list arrives as a data byte. -/
def arriveData (p : PortNo) (bs : List Byte) (s : State) : State :=
  bs.foldl (fun t b => arrive p { isCommand := false, byte := b } t) s

/-- The first step of a command waits at the port with these very bytes. -/
def Port.awaits (c : Command) (bs : List Byte) (P : Port) : Bool :=
  P.isWaiting && P.context.isNone && P.openCommand == some c.code && P.stepBytes == bs

/-- A whole command at a port: its bytes arrive, and its step is served. A step of it that waits already is
served as it stands. -/
def giveCommand (p : PortNo) (c : Command) (bs : List Byte) (s : State) : State :=
  if (s.port p).awaits c bs then serveWaiting p s
  else serveWaiting p (arriveData p bs (arrive p { isCommand := true, byte := c.code } s))

/-- The open command of the port stands at this field or entry: its bytes are still to come, or it waits with
these very bytes. -/
def Port.standsAt (isHere : FieldContext → Bool) (bs : List Byte) (P : Port) : Bool :=
  P.context.any isHere && (P.phase == .parameters || (P.isWaiting && P.stepBytes == bs))

/-- A whole field or entry of the open field-wise command of a port: it arrives, and it is served. Behind a
header, a field or an entry that still waits, it comes once that step has been served, as held bytes do (R163).
Where the port then does not stand at this field, nothing happens; an entry that waits with these very bytes is
this one; bytes of this field that the port holds already give way to the row's own bytes; the bits of a byte
being assembled stay (the model's choices, assumption log 17). -/
def giveField (p : PortNo) (isHere : FieldContext → Bool) (bs : List Byte) (s : State) : State :=
  let t := if (s.port p).standsAt isHere bs then s else serveWaiting p s
  if (t.port p).standsAt isHere bs then
    serveWaiting p (t.modPort p fun Q => { Q with stepBytes := bs, phase := .waiting })
  else s

/-! ### Power-on and hard reset -/

/-- Power-on and hard reset (R22, R42, R96, R104, R112, R159, R162, R168, R173, R182, R184, R187, R191): every
record takes its reset value, the straps give the roles, the decoders take the levels they find. -/
def fullReset (straps : Byte) (lines : BitVec 22) (s : State) : State :=
  { State.reset with
    ports := Ports.reset straps
    inputs := Inputs.found lines
    freeTick := s.freeTick
    pending := s.pending }

end Sys2Proof.Machine
end

