-- ==== Sys2Proof/Machine/Commands.lean ====
section
/-! DEFINITION. The meanings of the served steps, one definition per row of spec/opcode_table.json. Each
is the whole command at its port, or the whole field or entry (assumption log 2 and 17). -/

namespace Sys2Proof.Machine

/-- The port stands at this field of SET_POSITION. -/
def atPositionField (field : PositionField) : FieldContext → Bool
  | .position _ next => next == field
  | .recipe _ _ | .pattern _ _ => false

/-- The port stands at this field of WRITE_RECIPE. -/
def atRecipeField (index : Nat) : FieldContext → Bool
  | .recipe _ next => next == index
  | .position _ _ | .pattern _ _ => false

/-- The port stands at an entry of WRITE_PATTERN. -/
def atPatternEntry : FieldContext → Bool
  | .pattern _ _ => true
  | .position _ _ | .recipe _ _ => false

/-- READ_STATUS (R169). -/
def execReadStatus (p : PortNo) (s : State) : Host.Outcome State Fault Refusal :=
  .next (giveCommand p .readStatus [] s)

/-- READ_NOTICES (R181). -/
def execReadNotices (p : PortNo) (s : State) : Host.Outcome State Fault Refusal :=
  .next (giveCommand p .readNotices [] s)

/-- SET_INTEREST (R182). -/
def execSetInterest (p : PortNo) (mask : BitVec 16) (s : State) : Host.Outcome State Fault Refusal :=
  .next (giveCommand p .setInterest (beBytes 2 mask.toNat) s)

/-- READ_LANE (R170). -/
def execReadLane (p : PortNo) (lane : Byte) (s : State) : Host.Outcome State Fault Refusal :=
  .next (giveCommand p .readLane [lane] s)

/-- READ_LINE (R171). -/
def execReadLine (p : PortNo) (s : State) : Host.Outcome State Fault Refusal :=
  .next (giveCommand p .readLine [] s)

/-- READ_MARKS (R93, R178). -/
def execReadMarks (p : PortNo) (lane : Byte) (first : Byte) (s : State) : Host.Outcome State Fault Refusal :=
  .next (giveCommand p .readMarks [lane, first] s)

/-- READ_PACKAGE (R156, R179). -/
def execReadPackage (p : PortNo) (s : State) : Host.Outcome State Fault Refusal :=
  .next (giveCommand p .readPackage [] s)

/-- START_LANE (R11, R12). -/
def execStartLane (p : PortNo) (lane : Byte) (s : State) : Host.Outcome State Fault Refusal :=
  .next (giveCommand p .startLane [lane] s)

/-- STOP_LANE (R14, R15). -/
def execStopLane (p : PortNo) (lane : Byte) (s : State) : Host.Outcome State Fault Refusal :=
  .next (giveCommand p .stopLane [lane] s)

/-- SPLICE_BEGIN (R17, R71). -/
def execSpliceBegin (p : PortNo) (lane : Byte) (s : State) : Host.Outcome State Fault Refusal :=
  .next (giveCommand p .spliceBegin [lane] s)

/-- SPLICE_END (R17, R72). -/
def execSpliceEnd (p : PortNo) (lane : Byte) (s : State) : Host.Outcome State Fault Refusal :=
  .next (giveCommand p .spliceEnd [lane] s)

/-- READ_TRIM (R76). -/
def execReadTrim (p : PortNo) (lane : Byte) (s : State) : Host.Outcome State Fault Refusal :=
  .next (giveCommand p .readTrim [lane] s)

/-- PANEL_START (R114, R115). -/
def execPanelStart (p : PortNo) (s : State) : Host.Outcome State Fault Refusal :=
  .next (giveCommand p .panelStart [] s)

/-- PANEL_HALT (R116). -/
def execPanelHalt (p : PortNo) (s : State) : Host.Outcome State Fault Refusal :=
  .next (giveCommand p .panelHalt [] s)

/-- KNOT_DONE (R126 to R128). -/
def execKnotDone (p : PortNo) (row : BitVec 16) (tied : Byte) (s : State) : Host.Outcome State Fault Refusal :=
  .next (giveCommand p .knotDone (beBytes 2 row.toNat ++ [tied]) s)

/-- READ_ROW (R136). -/
def execReadRow (p : PortNo) (s : State) : Host.Outcome State Fault Refusal :=
  .next (giveCommand p .readRow [] s)

/-- CUT_DONE (R145, R146). -/
def execCutDone (p : PortNo) (target : Byte) (s : State) : Host.Outcome State Fault Refusal :=
  .next (giveCommand p .cutDone [target] s)

/-- RELEASE_PACKAGE (R157). -/
def execReleasePackage (p : PortNo) (s : State) : Host.Outcome State Fault Refusal :=
  .next (giveCommand p .releasePackage [] s)

/-- READ_CUTS (R158). -/
def execReadCuts (p : PortNo) (s : State) : Host.Outcome State Fault Refusal :=
  .next (giveCommand p .readCuts [] s)

/-- SET_MODE (R4, R192). -/
def execSetMode (p : PortNo) (mode : Byte) (s : State) : Host.Outcome State Fault Refusal :=
  .next (giveCommand p .setMode [mode] s)

/-- SET_GEOMETRY (R34). -/
def execSetGeometry (p : PortNo) (dKnot : BitVec 24) (dCut : BitVec 24) (kDraw : BitVec 24) (s : State) : Host.Outcome State Fault Refusal :=
  .next (giveCommand p .setGeometry (beBytes 3 dKnot.toNat ++ beBytes 3 dCut.toNat ++ beBytes 3 kDraw.toNat) s)

/-- SET_POSITION, the header step (R6). -/
def execSetPosition (p : PortNo) (position : Byte) (s : State) : Host.Outcome State Fault Refusal :=
  .next (giveCommand p .setPosition [position] s)

/-- SET_POSITION_FIELD (R6, R7): the next field of the SET_POSITION open on the port. -/
def execSetPositionField (p : PortNo) (field : PositionField) (value : Nat) (s : State) : Host.Outcome State Fault Refusal :=
  .next (giveField p (atPositionField field) (beBytes field.bytes value) s)

/-- SET_FACTOR (R37). -/
def execSetFactor (p : PortNo) (position : Byte) (k : BitVec 24) (lock : Byte) (s : State) : Host.Outcome State Fault Refusal :=
  .next (giveCommand p .setFactor ([position] ++ beBytes 3 k.toNat ++ [lock]) s)

/-- MAP_LANE (R9). -/
def execMapLane (p : PortNo) (lane : Byte) (target : Byte) (s : State) : Host.Outcome State Fault Refusal :=
  .next (giveCommand p .mapLane [lane, target] s)

/-- WRITE_RECIPE, the header step (R98). -/
def execWriteRecipe (p : PortNo) (slot : Byte) (first : Byte) (s : State) : Host.Outcome State Fault Refusal :=
  .next (giveCommand p .writeRecipe [slot, first] s)

/-- WRITE_RECIPE_FIELD (R97, R98, R102): the next field of the WRITE_RECIPE open on the port. -/
def execWriteRecipeField (p : PortNo) (index : Nat) (value : Nat) (s : State) : Host.Outcome State Fault Refusal :=
  .next (giveField p (atRecipeField index) (beBytes (recipeFieldBytes index) value) s)

/-- WRITE_PATTERN, the header step (R100). -/
def execWritePattern (p : PortNo) (slot : Byte) (first : Byte) (s : State) : Host.Outcome State Fault Refusal :=
  .next (giveCommand p .writePattern [slot, first] s)

/-- WRITE_PATTERN_ENTRY (R100, R102, R177): the next row of the WRITE_PATTERN open on the port. -/
def execWritePatternEntry (p : PortNo) (entry : BitVec 16) (s : State) : Host.Outcome State Fault Refusal :=
  .next (giveField p atPatternEntry (beBytes 2 entry.toNat) s)

/-- ASSIGN_RECIPE (R105 to R108). -/
def execAssignRecipe (p : PortNo) (target : Byte) (slot : Byte) (timing : Byte) (s : State) : Host.Outcome State Fault Refusal :=
  .next (giveCommand p .assignRecipe [target, slot, timing] s)

/-- CALIBRATE (R43, R44). -/
def execCalibrate (p : PortNo) (position : Byte) (n : Byte) (tol : Byte) (s : State) : Host.Outcome State Fault Refusal :=
  .next (giveCommand p .calibrate [position, n, tol] s)

/-- CLEAR_LANE (R21). -/
def execClearLane (p : PortNo) (lane : Byte) (s : State) : Host.Outcome State Fault Refusal :=
  .next (giveCommand p .clearLane [lane] s)

/-- ACK_STOP (R186). -/
def execAckStop (p : PortNo) (reasons : Byte) (s : State) : Host.Outcome State Fault Refusal :=
  .next (giveCommand p .ackStop [reasons] s)

/-- CLEAR_COUNTS (R188). -/
def execClearCounts (p : PortNo) (lanes : Byte) (s : State) : Host.Outcome State Fault Refusal :=
  .next (giveCommand p .clearCounts [lanes] s)

/-- FORCE_LINE (R190). -/
def execForceLine (p : PortNo) (line : Byte) (setting : Byte) (s : State) : Host.Outcome State Fault Refusal :=
  .next (giveCommand p .forceLine [line, setting] s)

/-- SOFT_RESET (R172). -/
def execSoftReset (p : PortNo) (s : State) : Host.Outcome State Fault Refusal :=
  .next (giveCommand p .softReset [] s)

/-- READ_CAL (R52). -/
def execReadCal (p : PortNo) (position : Byte) (s : State) : Host.Outcome State Fault Refusal :=
  .next (giveCommand p .readCal [position] s)

end Sys2Proof.Machine
end

