-- ==== Sys2Proof/Machine/Events.lean ====
section
/-! DEFINITION. The meanings of the internal events, one definition per row of spec/opcode_table.json. A
count makes these tests itself; a row alone makes its test on the state as it stands (assumption log 4). -/

namespace Sys2Proof.Machine

/-- THREADING_END (R13, R55, R69, R137). The owning block makes its test; the event happens if it is met
(assumption log 4). -/
def execThreadingEnd (l : LaneNo) (s : State) : Host.Outcome State Fault Refusal :=
  .next (threadingEndIfMet l s)

/-- WINDOW_END (R57 to R67). The owning block makes its test; the event happens if it is met (assumption
log 4). -/
def execWindowEnd (l : LaneNo) (s : State) : Host.Outcome State Fault Refusal :=
  .next (windowEndIfMet l s)

/-- SPLICE_OVERLONG (R73, R19). The owning block makes its test; the event happens if it is met
(assumption log 4). -/
def execSpliceOverlong (l : LaneNo) (s : State) : Host.Outcome State Fault Refusal :=
  .next (spliceOverlongIfMet l s)

/-- TALLY_LIMIT_REACHED (R29, R20, R16): the effect of a forward count that would pass the ceiling. The
owning block makes its test; the event happens if it is met (assumption log 4). -/
def execTallyLimitReached (l : LaneNo) (s : State) : Host.Outcome State Fault Refusal :=
  .next (tallyLimitIfMet l s)

/-- COIL_CUT_DUE (R138, R142, R143). The owning block makes its test; the event happens if it is met
(assumption log 4). -/
def execCoilCutDue (l : LaneNo) (s : State) : Host.Outcome State Fault Refusal :=
  .next (coilCutDueIfMet l s)

/-- CUT_LATE (R144, R185). The owning block makes its test; the event happens if it is met (assumption
log 4). -/
def execCutLate (target : CutName) (s : State) : Host.Outcome State Fault Refusal :=
  .next (cutLateIfMet target s)

/-- ROW_FALLS_DUE (R118 to R125). The owning block makes its test; the event happens if it is met
(assumption log 4). -/
def execRowFallsDue (s : State) : Host.Outcome State Fault Refusal :=
  .next (rowFallsDueIfMet s)

/-- ROW_TIMEOUT (R130). The owning block makes its test; the event happens if it is met (assumption log
4). -/
def execRowTimeout (s : State) : Host.Outcome State Fault Refusal :=
  .next (rowTimeoutIfMet s)

/-- TAIL_REACHED (R132, R133). The owning block makes its test; the event happens if it is met
(assumption log 4). -/
def execTailReached (s : State) : Host.Outcome State Fault Refusal :=
  .next (tailReachedIfMet s)

/-- PASS_A_CLOSE (R45, R46). The owning block makes its test; the event happens if it is met (assumption
log 4). -/
def execPassAClose (k : PosNo) (s : State) : Host.Outcome State Fault Refusal :=
  .next (passACloseIfMet k s)

/-- PASS_B_CLOSE (R47 to R49). The owning block makes its test; the event happens if it is met
(assumption log 4). -/
def execPassBClose (k : PosNo) (s : State) : Host.Outcome State Fault Refusal :=
  .next (passBCloseIfMet k s)

end Sys2Proof.Machine
end

