-- ==== Sys2Proof/Machine/Inputs.lean ====
section
/-! DEFINITION. The meanings of the input edges, one definition per row of spec/opcode_table.json. -/

namespace Sys2Proof.Machine

/-- WHEEL_COUNT_FORWARD (R10, R24, R27, R29, R30). -/
def execWheelCountForward (k : PosNo) (s : State) : Host.Outcome State Fault Refusal :=
  .next (wheelCount .forward k s)

/-- WHEEL_COUNT_REVERSE (R10, R24, R28, R30, R31). -/
def execWheelCountReverse (k : PosNo) (s : State) : Host.Outcome State Fault Refusal :=
  .next (wheelCount .reverse k s)

/-- FLYER_PULSE (R25, R56). -/
def execFlyerPulse (k : PosNo) (s : State) : Host.Outcome State Fault Refusal :=
  .next (positionFlyer k s)

/-- CAPSTAN_RISING_EDGE (R25, R45, R56). -/
def execCapstanRisingEdge (k : PosNo) (s : State) : Host.Outcome State Fault Refusal :=
  .next (positionCapstanRising k s)

/-- CAPSTAN_FALLING_EDGE (R25, R47). -/
def execCapstanFallingEdge (k : PosNo) (s : State) : Host.Outcome State Fault Refusal :=
  .next (calFalling k s)

/-- DRAW_COUNT (R32, R33). -/
def execDrawCount (d : Direction) (s : State) : Host.Outcome State Fault Refusal :=
  .next (drawCount d s)

/-- BOTH_LINES_CHANGE (R24). -/
def execBothLinesChange (input : Decoder) (s : State) : Host.Outcome State Fault Refusal :=
  .next (bothLines input s)

end Sys2Proof.Machine
end

