-- ==== Sys2Proof/Machine/Signals.lean ====
section
/-! DEFINITION. The meanings of the resets and of the port signals, one definition per row of
spec/opcode_table.json. -/

namespace Sys2Proof.Machine

/-- POWER_ON_RESET (R22, R162, R168, R173): every record takes its reset value; the straps give the
roles. -/
def execPowerOnReset (straps : Byte) (lines : BitVec 22) (s : State) : Host.Outcome State Fault Refusal :=
  .next (fullReset straps lines s)

/-- HARD_RESET (R22, R162, R168, R173): the same effect as power-on reset. -/
def execHardReset (straps : Byte) (lines : BitVec 22) (s : State) : Host.Outcome State Fault Refusal :=
  .next (fullReset straps lines s)

/-- TRANSFER_OPEN (R160). -/
def execTransferOpen (p : PortNo) (s : State) : Host.Outcome State Fault Refusal :=
  .next (openTransfer p s)

/-- COMMAND_BYTE (R161, R163): a completed byte with CDn low. -/
def execCommandByte (p : PortNo) (b : Byte) (s : State) : Host.Outcome State Fault Refusal :=
  .next (byteInTransfer p true b s)

/-- DATA_BYTE (R161, R163, R166): a completed byte with CDn high. -/
def execDataByte (p : PortNo) (b : Byte) (s : State) : Host.Outcome State Fault Refusal :=
  .next (byteInTransfer p false b s)

/-- TRANSFER_END (R164, R99). -/
def execTransferEnd (p : PortNo) (s : State) : Host.Outcome State Fault Refusal :=
  .next (endTransfer p s)

/-- BREAK (R165). -/
def execTransferBreak (p : PortNo) (s : State) : Host.Outcome State Fault Refusal :=
  .next (s.modPort p Port.breakTransfer)

/-- PAUSE (R165). -/
def execTransferPause (p : PortNo) (s : State) : Host.Outcome State Fault Refusal :=
  .next (s.modPort p Port.pauseTransfer)

/-- SCK_RISING_EDGE (R160). -/
def execSckRisingEdge (p : PortNo) (sdi : Bool) (cdn : Bool) (s : State) : Host.Outcome State Fault Refusal :=
  .next (clockBit p sdi cdn s)

end Sys2Proof.Machine
end

