-- ==== Sys2Proof/Machine/Dispatch.lean ====
section
/-! DEFINITION. One arm per constructor of `Instr`, in the order of spec/opcode_table.json. -/

namespace Sys2Proof.Machine

/-- The effect of a command on everything but the queue. -/
def exec (i : Instr) (s : State) : Host.Outcome State Fault Refusal :=
  match i with
  | .powerOnReset straps lines => Sys2Proof.Machine.execPowerOnReset straps lines s
  | .hardReset straps lines => Sys2Proof.Machine.execHardReset straps lines s
  | .transferOpen p => Sys2Proof.Machine.execTransferOpen p s
  | .commandByte p b => Sys2Proof.Machine.execCommandByte p b s
  | .dataByte p b => Sys2Proof.Machine.execDataByte p b s
  | .transferEnd p => Sys2Proof.Machine.execTransferEnd p s
  | .transferBreak p => Sys2Proof.Machine.execTransferBreak p s
  | .transferPause p => Sys2Proof.Machine.execTransferPause p s
  | .readStatus p => Sys2Proof.Machine.execReadStatus p s
  | .readNotices p => Sys2Proof.Machine.execReadNotices p s
  | .setInterest p mask => Sys2Proof.Machine.execSetInterest p mask s
  | .readLane p lane => Sys2Proof.Machine.execReadLane p lane s
  | .readLine p => Sys2Proof.Machine.execReadLine p s
  | .readMarks p lane first => Sys2Proof.Machine.execReadMarks p lane first s
  | .readPackage p => Sys2Proof.Machine.execReadPackage p s
  | .startLane p lane => Sys2Proof.Machine.execStartLane p lane s
  | .stopLane p lane => Sys2Proof.Machine.execStopLane p lane s
  | .spliceBegin p lane => Sys2Proof.Machine.execSpliceBegin p lane s
  | .spliceEnd p lane => Sys2Proof.Machine.execSpliceEnd p lane s
  | .readTrim p lane => Sys2Proof.Machine.execReadTrim p lane s
  | .panelStart p => Sys2Proof.Machine.execPanelStart p s
  | .panelHalt p => Sys2Proof.Machine.execPanelHalt p s
  | .knotDone p row tied => Sys2Proof.Machine.execKnotDone p row tied s
  | .readRow p => Sys2Proof.Machine.execReadRow p s
  | .cutDone p target => Sys2Proof.Machine.execCutDone p target s
  | .releasePackage p => Sys2Proof.Machine.execReleasePackage p s
  | .readCuts p => Sys2Proof.Machine.execReadCuts p s
  | .setMode p mode => Sys2Proof.Machine.execSetMode p mode s
  | .setGeometry p dKnot dCut kDraw => Sys2Proof.Machine.execSetGeometry p dKnot dCut kDraw s
  | .setPosition p position => Sys2Proof.Machine.execSetPosition p position s
  | .setPositionField p field value => Sys2Proof.Machine.execSetPositionField p field value s
  | .setFactor p position k lock => Sys2Proof.Machine.execSetFactor p position k lock s
  | .mapLane p lane target => Sys2Proof.Machine.execMapLane p lane target s
  | .writeRecipe p slot first => Sys2Proof.Machine.execWriteRecipe p slot first s
  | .writeRecipeField p index value => Sys2Proof.Machine.execWriteRecipeField p index value s
  | .writePattern p slot first => Sys2Proof.Machine.execWritePattern p slot first s
  | .writePatternEntry p entry => Sys2Proof.Machine.execWritePatternEntry p entry s
  | .assignRecipe p target slot timing => Sys2Proof.Machine.execAssignRecipe p target slot timing s
  | .calibrate p position n tol => Sys2Proof.Machine.execCalibrate p position n tol s
  | .clearLane p lane => Sys2Proof.Machine.execClearLane p lane s
  | .ackStop p reasons => Sys2Proof.Machine.execAckStop p reasons s
  | .clearCounts p lanes => Sys2Proof.Machine.execClearCounts p lanes s
  | .forceLine p line setting => Sys2Proof.Machine.execForceLine p line setting s
  | .softReset p => Sys2Proof.Machine.execSoftReset p s
  | .readCal p position => Sys2Proof.Machine.execReadCal p position s
  | .wheelCountForward k => Sys2Proof.Machine.execWheelCountForward k s
  | .wheelCountReverse k => Sys2Proof.Machine.execWheelCountReverse k s
  | .flyerPulse k => Sys2Proof.Machine.execFlyerPulse k s
  | .capstanRisingEdge k => Sys2Proof.Machine.execCapstanRisingEdge k s
  | .capstanFallingEdge k => Sys2Proof.Machine.execCapstanFallingEdge k s
  | .drawCount d => Sys2Proof.Machine.execDrawCount d s
  | .threadingEnd l => Sys2Proof.Machine.execThreadingEnd l s
  | .windowEnd l => Sys2Proof.Machine.execWindowEnd l s
  | .spliceOverlong l => Sys2Proof.Machine.execSpliceOverlong l s
  | .tallyLimitReached l => Sys2Proof.Machine.execTallyLimitReached l s
  | .coilCutDue l => Sys2Proof.Machine.execCoilCutDue l s
  | .cutLate target => Sys2Proof.Machine.execCutLate target s
  | .rowFallsDue => Sys2Proof.Machine.execRowFallsDue s
  | .rowTimeout => Sys2Proof.Machine.execRowTimeout s
  | .tailReached => Sys2Proof.Machine.execTailReached s
  | .passAClose k => Sys2Proof.Machine.execPassAClose k s
  | .passBClose k => Sys2Proof.Machine.execPassBClose k s
  | .sckRisingEdge p sdi cdn => Sys2Proof.Machine.execSckRisingEdge p sdi cdn s
  | .bothLinesChange input => Sys2Proof.Machine.execBothLinesChange input s

end Sys2Proof.Machine
end

