-- ==== Sys2Proof/Safety.lean ====
section
/-! DEFINITION. What a safe run keeps: the laws of the device, as each chapter states its own; and the terms in
which the statements speak of a port's command. -/

namespace Sys2Proof

open Machine in
/-- The port, command and bytes that a whole-command row spells; none for every other row. -/
def Instr.spells : Instr → Option (PortNo × Command × List Byte)
  | .readStatus p => some (p, .readStatus, [])
  | .readNotices p => some (p, .readNotices, [])
  | .setInterest p mask => some (p, .setInterest, beBytes 2 mask.toNat)
  | .readLane p lane => some (p, .readLane, [lane])
  | .readLine p => some (p, .readLine, [])
  | .readMarks p lane first => some (p, .readMarks, [lane, first])
  | .readPackage p => some (p, .readPackage, [])
  | .startLane p lane => some (p, .startLane, [lane])
  | .stopLane p lane => some (p, .stopLane, [lane])
  | .spliceBegin p lane => some (p, .spliceBegin, [lane])
  | .spliceEnd p lane => some (p, .spliceEnd, [lane])
  | .readTrim p lane => some (p, .readTrim, [lane])
  | .panelStart p => some (p, .panelStart, [])
  | .panelHalt p => some (p, .panelHalt, [])
  | .knotDone p row tied => some (p, .knotDone, beBytes 2 row.toNat ++ [tied])
  | .readRow p => some (p, .readRow, [])
  | .cutDone p target => some (p, .cutDone, [target])
  | .releasePackage p => some (p, .releasePackage, [])
  | .readCuts p => some (p, .readCuts, [])
  | .setMode p mode => some (p, .setMode, [mode])
  | .setGeometry p dKnot dCut kDraw =>
    some (p, .setGeometry, beBytes 3 dKnot.toNat ++ beBytes 3 dCut.toNat ++ beBytes 3 kDraw.toNat)
  | .setPosition p position => some (p, .setPosition, [position])
  | .setFactor p position k lock => some (p, .setFactor, [position] ++ beBytes 3 k.toNat ++ [lock])
  | .mapLane p lane target => some (p, .mapLane, [lane, target])
  | .writeRecipe p slot first => some (p, .writeRecipe, [slot, first])
  | .writePattern p slot first => some (p, .writePattern, [slot, first])
  | .assignRecipe p target slot timing => some (p, .assignRecipe, [target, slot, timing])
  | .calibrate p position n tol => some (p, .calibrate, [position, n, tol])
  | .clearLane p lane => some (p, .clearLane, [lane])
  | .ackStop p reasons => some (p, .ackStop, [reasons])
  | .clearCounts p lanes => some (p, .clearCounts, [lanes])
  | .forceLine p line setting => some (p, .forceLine, [line, setting])
  | .softReset p => some (p, .softReset, [])
  | .readCal p position => some (p, .readCal, [position])
  | .powerOnReset _ _ | .hardReset _ _ | .transferOpen _ | .commandByte _ _ | .dataByte _ _
  | .transferEnd _ | .transferBreak _ | .transferPause _ | .setPositionField _ _ _
  | .writeRecipeField _ _ _ | .writePatternEntry _ _ | .wheelCountForward _ | .wheelCountReverse _
  | .flyerPulse _ | .capstanRisingEdge _ | .capstanFallingEdge _ | .drawCount _ | .threadingEnd _
  | .windowEnd _ | .spliceOverlong _ | .tallyLimitReached _ | .coilCutDue _ | .cutLate _ | .rowFallsDue
  | .rowTimeout | .tailReached | .passAClose _ | .passBClose _ | .sckRisingEdge _ _ _
  | .bothLinesChange _ => none

end Sys2Proof

namespace Sys2Proof.Machine

/-! ### A port's command -/

/-- No step waits at any port. -/
abbrev Quiet (s : State) : Prop := ∀ q : PortNo, (s.port q).isWaiting = false

/-- No step waits, the port holds no byte, and it has the role. -/
abbrev Ready (p : PortNo) (r : Role) (s : State) : Prop :=
  Quiet s ∧ (s.port p).held = [] ∧ (s.port p).role = r

/-- The port's record after an action command: discarding, with its code, its result and CLAMPED. -/
def Port.answered (c : Command) (r : Result) (clamped : Bool) (P : Port) : Port :=
  { P with phase := .discarding, openCommand := some c.code, stepBytes := [], context := none, response := [],
           respPtr := 0, statusOf := none, lastCommand := some c.code, lastResult := r, clamped := clamped }

/-- The state after an action command has been answered at a port, its effect on the records apart. -/
def State.answered (p : PortNo) (c : Command) (r : Result) (clamped : Bool) (s : State) : State :=
  { s.modPort p (Port.answered c r clamped) with turn := p }

/-- The port's record after a read other than READ_STATUS: streaming its result byte and its fields. -/
def Port.streamed (c : Command) (r : Result) (body : List Byte) (P : Port) : Port :=
  { P with phase := .streaming, openCommand := some c.code, stepBytes := [], context := none,
           response := r.code :: body, respPtr := 0, statusOf := none, lastCommand := some c.code,
           lastResult := r, clamped := false }

/-- The state after a read has been served at a port. -/
def State.streamed (p : PortNo) (c : Command) (r : Result) (body : List Byte) (s : State) : State :=
  { s.modPort p (Port.streamed c r body) with turn := p }

/-- The port's record after the header of a field-wise command: ready for the first field. -/
def Port.headed (c : Command) (ctx : FieldContext) (P : Port) : Port :=
  { P with phase := .parameters, openCommand := some c.code, stepBytes := [], context := some ctx,
           response := [], respPtr := 0, statusOf := none, lastCommand := some c.code,
           lastResult := .incomplete, clamped := false }

/-- The state after the header of a field-wise command has been accepted at a port. -/
def State.headed (p : PortNo) (c : Command) (ctx : FieldContext) (s : State) : State :=
  { s.modPort p (Port.headed c ctx) with turn := p }

/-- Commands taken one after another, each to its next state. -/
def execAll : List Instr → State → Host.Outcome State Fault Refusal
  | [], s => .next s
  | c :: cs, s =>
    match exec c s with
    | .next t => execAll cs t
    | .fault r => .fault r
    | .refused r => .refused r

/-! ### A slot, a mark list and a lane in the words of their rules -/

/-- A slot is in use, by the cases that R101 lists. -/
abbrev InUse (s : State) (i : SlotNo) : Prop :=
  (∃ l : LaneNo, (s.lane l).state ≠ .idle ∧ (s.lane l).slot = i) ∨ (∃ l : LaneNo, (s.lane l).pendingSlot = some i) ∨
  (s.line.mode = .net ∧ s.line.lineSlot = i ∧ (s.panel.state ≠ .none ∨ s.line.pendingLineSlot ≠ none)) ∨
  s.line.pendingLineSlot = some i

/-- A mark list with a mark placed after every mark at or before its position and before every mark beyond, for
a list in order (R81). -/
def placed (m : Mark) (ms : List Mark) : List Mark :=
  ms.takeWhile (fun x => decide (x.position ≤ m.position)) ++ m :: ms.dropWhile (fun x => decide (x.position ≤ m.position))

/-- The newest zone of a list stands at an index: no TWIST_ZONE has a greater end, and of those that share its
end none was made later (R61, R86). -/
abbrev IsNewestZone (ms : List Mark) (i : Fin ms.length) : Prop :=
  let finish := fun m : Mark => m.position + m.extent.getD 0
  ms[i].kind = .twistZone ∧ ∀ j : Fin ms.length, ms[j].kind = .twistZone →
    finish ms[j] < finish ms[i] ∨
      (finish ms[j] = finish ms[i] ∧ (ms[j].made < ms[i].made ∨ (ms[j].made = ms[i].made ∧ i ≤ j)))

/-- A lane that took the slot `i` with the recipe `r` at a switch, by its state (R70, R111). -/
def Lane.restartedUnder (r : Recipe) (i : SlotNo) (x : Lane) : Lane :=
  let y : Lane := { x with slot := i, limitStrike := false }
  let trim : Int := match r.trimStart with
    | .mid => (r.trimMin + r.trimMax).tdiv 2
    | .keep => max r.trimMin (min r.trimMax x.trim)
  match x.state with
  | .run =>
    { y with trim := trim, windowStart := x.tally / 256, windowPulses := 0, capstanPulses := 0, periodIndex := 0,
             highCount := 0, lowCount := 0 }
  | .splicing | .fault => { y with trim := trim }
  | .idle | .threading | .stopping => y

/-- What goes out of a mark list at a cut position, the cut not being an END cut (R88, R89): the marks behind it,
a mark that spans it cut off there; an open SPLICE goes out as it is. -/
def goneOut (cut : Nat) (ms : List Mark) : List Mark :=
  ms.filterMap fun m =>
    if cut ≤ m.position then none
    else if cut < m.position + m.extent.getD 0 then some { m with extent := some (cut - m.position) }
    else some m

/-- What stays of a mark list at a cut position, the cut not being an END cut (R88, R89): the marks at or beyond
it, and the rest of a mark that spans it, at the cut; an open SPLICE stays too, from the cut on. -/
def leftIn (cut : Nat) (ms : List Mark) : List Mark :=
  ms.filterMap fun m =>
    if cut ≤ m.position then some m
    else if m.kind = .splice ∧ m.extent = none then some { m with position := cut }
    else if cut < m.position + m.extent.getD 0 then
      some { m with position := cut, extent := some (m.position + m.extent.getD 0 - cut) }
    else none

/-! ### Due cuts and lateness -/

/-- The cut unit after a cut has fallen due: it joins the list at its tail, REQUESTED while the queue has a free
place and HELD otherwise, or is deferred while the list holds an entry of the other kind (R142, R143). -/
def CutUnit.withDue (u : CutUnit) (w : CutWhat) (due : Nat) (late : Bool) : CutUnit :=
  if u.list.any (fun e => e.what.isCoil != w.isCoil) then
    { u with deferred := u.deferred ++ [{ what := w, duePos := due, late := late }] }
  else
    { u with
      list := u.list ++ [
        { what := w, duePos := due, late := late
          state := if u.queue.length + (u.list.filter fun e => e.state == .requested).length < 8 then .requested
            else .held }] }

/-- The cut unit after a late test of the due cuts chosen by `sel`, entries and deferred cuts alike: late is
whether the due position is past its limit (R144). -/
def CutUnit.tested (u : CutUnit) (sel : CutWhat → Bool) (past : Nat → Bool) : CutUnit :=
  { u with
    list := u.list.map fun e => if sel e.what then { e with late := past e.duePos } else e
    deferred := u.deferred.map fun d => if sel d.what then { d with late := past d.duePos } else d }

/-- Some due cut chosen by `sel`, an entry or a deferred cut, is not marked late and is past its limit. -/
def CutUnit.becomesLate (u : CutUnit) (sel : CutWhat → Bool) (past : Nat → Bool) : Bool :=
  u.list.any (fun e => sel e.what && !e.late && past e.duePos) ||
    u.deferred.any (fun d => sel d.what && !d.late && past d.duePos)

/-- A state whose due cuts chosen by `sel` have been tested: for one that becomes late CUT_LATE is requested, with
the lanes of the cut (R144, R185). -/
def State.lateTested (s : State) (sel : CutWhat → Bool) (past : Nat → Bool) (lanes : LaneSet) : State :=
  if s.cuts.becomesLate sel past then
    State.raise .stop lanes { s with cuts := s.cuts.tested sel past, stops := { s.stops with cutLate := true } }
  else { s with cuts := s.cuts.tested sel past }

/-! ### A lane entering FAULT -/

/-- A lane of `s` that entered FAULT left `t` (R3, R19, R49, R51): LANE_STATE is raised with the lane; LANE_FAULT is
requested with it exactly when its recipe asks for it or it is a net lane of an open panel; and a calibration
that ran on its position is DONE as ABORTED, with CAL and the lane of its record. -/
abbrev FaultEntered (s t : State) (l : LaneNo) : Prop :=
  let asks : Prop := (s.recipe (s.lane l).slot).stopOnFault = true ∨
    (s.line.mode = .net ∧ s.panel.state ≠ .none ∧ l.val < (s.recipe s.line.lineSlot).netWidth)
  let ran : PosNo → Prop := fun k =>
    (s.lane l).position = some k ∧ ((s.cal k).state = .passA ∨ (s.cal k).state = .passB)
  (∀ q, (t.port q).notices.has .laneState = true ∧ laneIn ((t.port q).notices.lanesFor .laneState) l = true) ∧
  (asks → t.stops = { s.stops with laneFault := true, faultRecord := s.stops.faultRecord ||| laneBit l } ∧
    ∀ q, (t.port q).notices.has .stop = true ∧ laneIn ((t.port q).notices.lanesFor .stop) l = true) ∧
  (¬ asks → t.stops = s.stops) ∧
  ∀ k : PosNo,
    (¬ ran k → t.cal k = s.cal k) ∧
    (ran k → t.cal k = { s.cal k with state := .done, result := some .aborted, cause := none } ∧
      ∀ q, (t.port q).notices.has .cal = true ∧
        ∀ m, (s.cal k).lane = some m → laneIn ((t.port q).notices.lanesFor .cal) m = true)

/-! ### The laws of the device -/

/-- No tally exceeds 256 x 10^12 (R26, R32). -/
abbrev TallyLaw (s : State) : Prop :=
  (∀ l : LaneNo, (s.lane l).tally ≤ tallyCeiling) ∧ s.line.drawTally ≤ tallyCeiling

/-- The two views of the map agree, and every lane that is not IDLE is on a position in service (R8). -/
abbrev MapLaw (s : State) : Prop :=
  (∀ (l : LaneNo) (k : PosNo), (s.lane l).position = some k ↔ (s.position k).mappedLane = some l) ∧
  (∀ l : LaneNo, (s.lane l).state ≠ .idle → onServicePosition s l = true)

/-- The store holds at most 96 marks; each list holds its own lane's marks in non-decreasing order of
position, none behind its lane's coil_start (R80). -/
abbrev MarkLaw (s : State) : Prop :=
  s.marksHeld ≤ 96 ∧
  ∀ l : LaneNo, (s.markList l).Pairwise (fun m n => m.position ≤ n.position) ∧
    ∀ m ∈ s.markList l, m.lane = l ∧ (s.lane l).coilStart ≤ m.position

/-- Packages and REQUESTED entries together never exceed 8 (R143). -/
abbrev PlacesLaw (s : State) : Prop := s.cuts.queue.length + s.cuts.requested ≤ 8

/-- The numbers of a queue run consecutively up to the one before the counter, 1 following 65535. -/
def numbersRun : List Package → Nat → Bool
  | [], _ => true
  | [x], counter => nextNumber x.number == counter
  | x :: y :: rest, counter => nextNumber x.number == y.number && numbersRun (y :: rest) counter

/-- The package numbers run consecutively, each 1 to 65535, and the counter follows the last (R152). -/
abbrev NumberLaw (s : State) : Prop :=
  (1 ≤ s.cuts.counter ∧ s.cuts.counter ≤ 65535) ∧
  (∀ x ∈ s.cuts.queue, 1 ≤ x.number ∧ x.number ≤ 65535) ∧
  numbersRun s.cuts.queue s.cuts.counter = true

/-- While a lane is in RUN, SPLICING or FAULT its trim lies within the limits of its active slot (R69); and
the limits of every slot that a lane runs under, or will, are in order. -/
abbrev TrimLaw (s : State) : Prop :=
  (∀ l : LaneNo, (s.lane l).state.running = true →
    (s.activeRecipe l).trimMin ≤ (s.lane l).trim ∧ (s.lane l).trim ≤ (s.activeRecipe l).trimMax) ∧
  (∀ l : LaneNo, (s.lane l).state ≠ .idle → (s.activeRecipe l).trimMin ≤ (s.activeRecipe l).trimMax) ∧
  (∀ (l : LaneNo) (i : SlotNo), (s.lane l).pendingSlot = some i → (s.recipe i).trimMin ≤ (s.recipe i).trimMax) ∧
  (∀ i : SlotNo, s.line.pendingLineSlot = some i → (s.recipe i).trimMin ≤ (s.recipe i).trimMax)

/-- The COIL cuts of a lane in the list and among the deferred cuts. -/
def coilCuts (s : State) (l : LaneNo) : Nat := (s.cuts.dueCuts.filter fun d => d.what.isCoilOf l).length

/-- The PANEL cuts in the list and among the deferred cuts. -/
def panelCuts (s : State) : Nat := (s.cuts.dueCuts.filter fun d => !d.what.isCoil).length

/-- An END cut. -/
def CutWhat.isEndOf (l : LaneNo) : CutWhat → Bool
  | .coil m r => m == l && r == .endCut
  | .panel _ => false

/-- The cut list holds entries of one kind only, at most one COIL cut of each lane and at most one PANEL cut
(R141). What keeps it so: a lane with a coil cut due runs with its plan DUE or is STOPPING, an END cut
belongs to a STOPPING lane, and a panel with its cut due is in CUT_WAIT. -/
abbrev CutListLaw (s : State) : Prop :=
  (∀ e ∈ s.cuts.list, ∀ f ∈ s.cuts.list, e.what.isCoil = f.what.isCoil) ∧
  (∀ l : LaneNo, coilCuts s l ≤ 1 ∧
    (coilCuts s l = 1 → (s.lane l).state = .stopping ∨
      ((s.lane l).state.running = true ∧ (s.lane l).plan.state = .due)) ∧
    ((∃ d ∈ s.cuts.dueCuts, d.what.isEndOf l = true) → (s.lane l).state = .stopping)) ∧
  panelCuts s ≤ 1 ∧ (panelCuts s = 1 → s.panel.state = .cutWait)

/-- The row list holds at most 4 rows in increasing row numbers, none of a number still to come, and only
while the panel is LAYING or FINISHING (R124, R132). -/
abbrev RowListLaw (s : State) : Prop :=
  s.rows.length ≤ 4 ∧ s.rows.Pairwise (fun a b => a.row < b.row) ∧
  (∀ x ∈ s.rows, x.row < s.panel.nextRow) ∧
  (s.rows ≠ [] → s.panel.state = .laying ∨ s.panel.state = .finishing)

/-- A panel is open only in NET mode, with lane 0 in RUN, SPLICING or FAULT; every net is at least one lane
wide, so that lane 0 is in the net set (R112, R114, R15). -/
abbrev PanelLaw (s : State) : Prop :=
  (s.panelOpen = true → s.line.mode = .net ∧ (s.lane 0).state.running = true) ∧
  (∀ i : SlotNo, 1 ≤ (s.recipe i).netWidth)

/-- The laws of the cut list, the row list and the panel, which keep one another. -/
abbrev LineLaw (s : State) : Prop := CutListLaw s ∧ RowListLaw s ∧ PanelLaw s

/-- A recipe field is within the range of its row of the table (06, "The recipe slot"). -/
abbrev Recipe.InRange (r : Recipe) : Prop :=
  (100 ≤ r.targetTpm ∧ r.targetTpm ≤ 60000) ∧ (1 ≤ r.tolPm ∧ r.tolPm ≤ 200) ∧
  (100 ≤ r.windowMm ∧ r.windowMm ≤ 100000) ∧ (1 ≤ r.period ∧ r.period ≤ 16) ∧
  (1 ≤ r.threshold ∧ r.threshold ≤ 16) ∧ (-64 ≤ r.trimMin ∧ r.trimMin ≤ 63) ∧
  (-64 ≤ r.trimMax ∧ r.trimMax ≤ 63) ∧ (1 ≤ r.slipPm ∧ r.slipPm ≤ 500) ∧ r.threadMm ≤ 1000000 ∧
  (1 ≤ r.spliceMaxMm ∧ r.spliceMaxMm ≤ 50000) ∧ (1 ≤ r.coilM ∧ r.coilM ≤ 20000) ∧
  (1 ≤ r.minCoilM ∧ r.minCoilM ≤ 20000) ∧ r.overlengthMm ≤ 100000 ∧ r.maxSplices ≤ 15 ∧
  r.spliceClearMm ≤ 10000 ∧ (2 ≤ r.netWidth ∧ r.netWidth ≤ 8) ∧ (100 ≤ r.pitch ∧ r.pitch ≤ 50000) ∧
  r.allowance ≤ 5000 ∧ (1 ≤ r.feedTol ∧ r.feedTol ≤ 5000) ∧ (1 ≤ r.rowTimeout ∧ r.rowTimeout ≤ 50000) ∧
  r.leadInMm ≤ 10000 ∧ r.tailMm ≤ 10000 ∧ r.selvedgeRows ≤ 8 ∧ (1 ≤ r.panelRows ∧ r.panelRows ≤ 4096) ∧
  (1 ≤ r.patternLen ∧ r.patternLen ≤ 32)

/-- A position's factor, capstan and pulse fields are within their ranges (01, "The position table"). -/
abbrev Position.InRange (x : Position) : Prop :=
  (12800 ≤ x.k ∧ x.k ≤ 512000) ∧ (100000 ≤ x.cRef ∧ x.cRef ≤ 10000000) ∧ (1 ≤ x.pc ∧ x.pc ≤ 64) ∧
  (1 ≤ x.np ∧ x.np ≤ 16)

/-- Every recipe slot, position record and geometry field is within its range (R34, R37, R48, R97, R6). -/
abbrev RangeLaw (s : State) : Prop :=
  (∀ i : SlotNo, (s.recipe i).InRange) ∧ (∀ k : PosNo, (s.position k).InRange) ∧
  s.line.dKnot ≤ 100000 ∧ s.line.dCut ≤ 100000 ∧ (12800 ≤ s.line.kDraw ∧ s.line.kDraw ≤ 512000)

/-- What a lane's twist state, runs and counters hold is within its range (R2, R54, R62, R64, R122); in RUN the
period has windows left. -/
abbrev Lane.InRange (period : Nat) (x : Lane) : Prop :=
  (-64 ≤ x.trim ∧ x.trim ≤ 63) ∧ x.lastTpm.getD 0 ≤ 65535 ∧
  (x.windowPulses ≤ 16777215 ∧ x.capstanPulses ≤ 16777215) ∧
  (x.periodIndex ≤ 16 ∧ x.highCount ≤ x.periodIndex ∧ x.lowCount ≤ x.periodIndex) ∧
  (x.state = .run → x.periodIndex < period) ∧ (x.slipRun ≤ 3 ∧ x.pitchRun ≤ 3) ∧
  (x.counters.windows ≤ 65535 ∧ x.counters.high ≤ 65535 ∧ x.counters.low ≤ 65535 ∧ x.counters.splices ≤ 65535 ∧
    x.counters.slips ≤ 65535)

/-- What a calibration record holds is within its range (R42), and a running pass has edges left. -/
abbrev CalRecord.InRange (pc : Nat) (c : CalRecord) : Prop :=
  (1 ≤ c.n.getD 1 ∧ c.n.getD 1 ≤ 64) ∧ (1 ≤ c.calTol.getD 1 ∧ c.calTol.getD 1 ≤ 50) ∧ c.edges ≤ 4097 ∧
  (c.state = .passA → c.edges < c.n.getD 0 * pc) ∧ (c.state = .passB → c.edges ≤ c.n.getD 0 * pc)

/-- Every lane and every calibration record is within its ranges. -/
abbrev WorkRangeLaw (s : State) : Prop :=
  (∀ l : LaneNo, (s.lane l).InRange (s.activeRecipe l).period) ∧ ∀ k : PosNo, (s.cal k).InRange (s.position k).pc

/-- No port holds a byte between two commands, no partial byte is longer than seven bits (R160, R163), and a byte
within which a response was stopped is kept within that byte only (R172). -/
abbrev PortLaw (s : State) : Prop :=
  ∀ p : PortNo, (s.port p).held = [] ∧ (s.port p).partialBits.length ≤ 7 ∧
    ((s.port p).partialBits = [] → (s.port p).lastOut = none)

end Sys2Proof.Machine
end

