-- ==== Sys2Proof/Certificates/Slice0/Obligations.lean ====
section
/-! DEFINITION. The statements about the model, one definition per statement; OBLIGATIONS.json lists them. -/

section Statements

open Sys2Proof Sys2Proof.Machine

/-! ### The step and the arbiter -/

/-- A step takes the command at the front of the queue and executes it on the rest (assumption log 1). -/
def Obligations.StepTakesTheFrontCommand : Prop :=
  ∀ (c : Instr) (s : State), step { s with pending := c :: s.pending } = exec c s

/-- With an empty queue and no waiting step the block idles: the model's own choice (assumption log 1).
One turn of the arbiter on an empty queue (R168): with a step waiting, the port served is the first in the
order following the turn pointer, and the pointer then names it; no other port's waiting step is served with
it, so that it waits on, unless the step served was SOFT_RESET, which discards it; and the port served does
not take the next turn while another port waits. -/
def Obligations.ArbiterServesOneStepInTurn : Prop :=
  (∀ s : State, s.pending = [] → Quiet s → step s = .next s) ∧
  (∀ s : State, s.pending = [] → (∃ q, (s.port q).isWaiting = true) →
     ∃ (t : State) (q : PortNo) (n : Nat), step s = .next t ∧ t.turn = q ∧ n < 4 ∧
       q.val = (s.turn.val + 1 + n) % 4 ∧ (s.port q).isWaiting = true ∧
       (∀ m < n, ∀ r : PortNo, r.val = (s.turn.val + 1 + m) % 4 → (s.port r).isWaiting = false) ∧
       ((s.port q).openCommand ≠ some Command.softReset.code →
         ∀ r : PortNo, r ≠ q → (t.port r).isWaiting = (s.port r).isWaiting) ∧
       ((∃ r : PortNo, r ≠ q ∧ (t.port r).isWaiting = true) → nextWaiting t ≠ some q))

/-! ### Resets -/

/-- Power-on reset and hard reset set every lane record, the line mode and every position record (R22). R112 says in
passing that last_row_tally becomes 0 there, where R22 lists none: that the model takes none is its choice
(assumption log 27). -/
def Obligations.ResetSetsLanesPositionsAndMode : Prop :=
  ∀ (straps : Byte) (lines : BitVec 22) (s : State),
    ∃ t : State, exec (.powerOnReset straps lines) s = .next t ∧ exec (.hardReset straps lines) s = .next t ∧
      (∀ l : LaneNo, t.lane l =
        { state := .idle, position := some (l.castLE (by decide)), tally := 0, coilStart := 0, slot := 0,
          pendingSlot := none, trim := 0, lastTpm := none, windowStart := 0, windowPulses := 0,
          capstanPulses := 0, periodIndex := 0, highCount := 0, lowCount := 0, limitStrike := false,
          slipRun := 0, pitchRun := 0, spliceStart := none, faultCause := none,
          counters := { windows := 0, high := 0, low := 0, splices := 0, slips := 0 }, marksLost := false,
          trimLimited := false, lastRowTally := none,
          plan := { state := .none, planPos := 0, reason := .normal } }) ∧
      t.line.mode = .rope ∧
      (∀ k : PosNo, t.position k =
        { inService := true, k := 100000, kLocked := false, cRef := 1256637, pc := 1, np := 4,
          mappedLane := if h : k.val < 8 then some ⟨k.val, h⟩ else none })

/-- Power-on reset and hard reset: the calibration records, recipes, mark store, line-level state, panel and
row list, cut and package unit, stop unit, forcing and decoder references; the model's own two fields stay.
Power-on reset and hard reset: every port, with the role of its straps and that role's default interest,
and the turn pointer on P3. -/
def Obligations.ResetSetsStoresAndPorts : Prop :=
  (∀ (straps : Byte) (lines : BitVec 22) (s : State),
     ∃ t : State, exec (.powerOnReset straps lines) s = .next t ∧ exec (.hardReset straps lines) s = .next t ∧
       (∀ k : PosNo, t.cal k =
         { state := .idle, started := false, lane := none, n := none, calTol := none, edges := 0, nRun := 0,
           nA := none, nB := none, kA := none, kB := none, k := none, result := none, cause := none,
           stored := false }) ∧
       (∀ i : SlotNo, t.recipe i =
         { targetTpm := 10000, tolPm := 20, windowMm := 2000, period := 8, twoStep := true, threshold := 2,
           trimMin := -32, trimMax := 31, trimStart := .mid, slipPm := 30, threadMm := 20000,
           spliceMaxMm := 3000, coilM := 220, minCoilM := 50, overlengthMm := 2000, maxSplices := 2,
           spliceClearMm := 1500, stopOnFault := false, netWidth := 8, pitch := 2500, allowance := 380,
           feedTol := 60, rowTimeout := 1250, leadInMm := 500, tailMm := 500, selvedgeRows := 2,
           selvedgeMask := 0b1111111, panelRows := 200, patternLen := 2, pattern := (t.recipe i).pattern } ∧
         ∀ r : Fin 32, (t.recipe i).pattern[r]
           = if r = 0 then 0b1010101#7 else if r = 1 then 0b0101010#7 else 0b0000000#7) ∧
       (∀ l : LaneNo, t.markList l = []) ∧ t.freeEntries = 96 ∧
       t.line = { mode := .rope, drawTally := 0, dKnot := 0, dCut := 0, kDraw := 100000, lineSlot := 0,
                  pendingLineSlot := none } ∧
       t.panel = { state := .none, netWidth := none, drawStart := 0, nextRow := 0, lastClosedRow := none,
                   tailReached := false, halt := false, rowsKnotted := 0, rowsTimedOut := 0, rowsSkipped := 0 } ∧
       t.rows = [] ∧ t.cuts = { list := [], deferred := [], queue := [], counter := 1 } ∧ t.cuts.freePlaces = 8 ∧
       t.stops = { rowOverrun := false, cutLate := false, feed := false, laneFault := false, faultRecord := 0 } ∧
       t.forcing = { rowReq := .auto, cutReq := .auto, stopReq := .auto } ∧
       (∀ k : PosNo, t.inputs.wheels[k] = (lines.getLsbD (2 * k.val), lines.getLsbD (2 * k.val + 1))) ∧
       t.inputs.draw = (lines.getLsbD 20, lines.getLsbD 21) ∧
       t.freeTick = s.freeTick ∧ t.pending = s.pending) ∧
  (∀ (straps : Byte) (lines : BitVec 22) (s : State),
     ∃ t : State, exec (.powerOnReset straps lines) s = .next t ∧ exec (.hardReset straps lines) s = .next t ∧
       t.turn = 3 ∧
       ∀ p : PortNo,
         let role : Role :=
           match straps.getLsbD (2 * p.val), straps.getLsbD (2 * p.val + 1) with
           | false, false => .twist
           | true, false => .knot
           | false, true => .pack
           | true, true => .supervise
         t.port p =
           { role := role, transferOpen := false, partialBits := [], lastOut := none, openCommand := none, phase := .none,
             stepBytes := [], context := none, response := [], respPtr := 0, lastCommand := none,
             lastResult := .ok, clamped := false, held := [], statusOf := none,
             notices := { present := 0, lanes := Vector.replicate 9 0 },
             interest := match role with
               | .twist => 0x0043#9
               | .knot => 0x0045#9
               | .pack => 0x0070#9
               | .supervise => 0x01FF#9 })

/-- SOFT_RESET acts on the lanes as R23 gives, and on nothing that R23 keeps: every lane goes to IDLE with its
position, slot and trim, and no cut, package, stop reason, mark, calibration or notice is left. The service of a
SOFT_RESET that comes next in the arbiter's order, whatever waits at the other ports (R172): the jobs are reset,
the open command of every port is closed and its notices are emptied, and what R172 keeps is kept; a byte being
assembled on another port goes on assembling, and one within which a response stops goes out whole; that the
other ports keep their last command, last result and CLAMPED, their partial byte and the byte being clocked out
is the model's reading of R172 (assumption log 23). That last_row_tally becomes none, as R23 lists it and
against R112's words in passing, is the model's choice (assumption log 27). -/
def Obligations.SoftResetReturnsTheJobs : Prop :=
  (∀ (s : State) (p : PortNo), Ready p .supervise s →
     ∃ t : State, exec (.softReset p) s = .next t ∧ (t.port p).lastResult = .ok ∧
       (∀ l : LaneNo, t.lane l =
         { state := .idle, position := (s.lane l).position, tally := 0, coilStart := 0, slot := (s.lane l).slot,
           pendingSlot := none, trim := (s.lane l).trim, lastTpm := none, windowStart := 0, windowPulses := 0,
           capstanPulses := 0, periodIndex := 0, highCount := 0, lowCount := 0, limitStrike := false,
           slipRun := 0, pitchRun := 0, spliceStart := none, faultCause := none,
           counters := { windows := 0, high := 0, low := 0, splices := 0, slips := 0 }, marksLost := false,
           trimLimited := false, lastRowTally := none,
           plan := { state := .none, planPos := 0, reason := .normal } }) ∧
       t.cuts = { list := [], deferred := [], queue := [], counter := s.cuts.counter } ∧
       t.stops = { rowOverrun := false, cutLate := false, feed := false, laneFault := false, faultRecord := 0 } ∧
       (∀ l : LaneNo, t.markList l = []) ∧ (∀ k : PosNo, t.cal k = CalRecord.reset) ∧
       (∀ q : PortNo, (t.port q).notices = NoticeSet.empty) ∧
       t.line.mode = s.line.mode ∧ t.positions = s.positions) ∧
  (∀ (s : State) (p : PortNo), s.pending = [] → nextWaiting s = some p →
     (s.port p).openCommand = some 0x4D → (s.port p).context = none → (s.port p).held = [] →
     ∃ t : State, step s = .next t ∧ t.turn = p ∧
       t.port p = { s.port p with
         partialBits := [], lastOut := none, openCommand := none, phase := .none, stepBytes := [], context := none,
         response := [], respPtr := 0, statusOf := none, lastResult := .ok, notices := NoticeSet.empty } ∧
       (∀ q : PortNo, q ≠ p → t.port q = { s.port q with
         openCommand := none, phase := .none, stepBytes := [], context := none, response := [], respPtr := 0,
         statusOf := none, notices := NoticeSet.empty
         lastOut := if (s.port q).phase = .streaming ∧ (s.port q).partialBits ≠ [] then some (s.port q).outgoing
           else (s.port q).lastOut }) ∧
       (∀ l : LaneNo, t.lane l =
         { Lane.reset (s.lane l).position with slot := (s.lane l).slot, trim := (s.lane l).trim }) ∧
       (∀ k : PosNo, t.cal k = CalRecord.reset) ∧ t.marks = MarkStore.empty ∧
       t.line = { s.line with drawTally := 0, pendingLineSlot := none } ∧ t.panel = Panel.reset ∧ t.rows = [] ∧
       t.cuts = { list := [], deferred := [], queue := [], counter := s.cuts.counter } ∧
       t.stops = StopUnit.empty ∧
       t.positions = s.positions ∧ t.recipes = s.recipes ∧ t.forcing = s.forcing ∧ t.inputs = s.inputs ∧
       t.freeTick = s.freeTick ∧ t.pending = [])

/-! ### Bytes and transfers -/

/-- A command byte at a port, and the data bytes that no command takes (R161): the open command is closed, and the
one the code names is opened; READ_STATUS leaves the last command, the last result and CLAMPED; a code that
names no command is refused with RANGE, one outside the port's role with ROLE; a command without parameters
waits at once. A data byte with no command open or in DISCARDING is discarded, and the port sends 00h (R160) for
every byte but those of a response. That a refused code stays the open command until it is closed, and what
READ_STATUS keeps of the command it closed, is the model's reading (assumption log 21); so is the byte being
clocked out (assumption log 23). Stated for a port at which no step waits; SelectOpensEndsBreaksAndPauses says
what a byte does at one that waits. That a byte row given within a byte takes its place is the model's choice
(assumption log 28). -/
def Obligations.CommandByteOpensItsCommand : Prop :=
  ∀ (s : State) (p : PortNo) (b : Byte), (s.port p).transferOpen = true → (s.port p).isWaiting = false →
    exec (.commandByte p b) s = .next (s.modPort p fun P =>
      let shut := { P with partialBits := [], lastOut := none, openCommand := some b, stepBytes := [], context := none,
                           response := [], respPtr := 0 }
      if b = 0x01 then { shut with phase := .waiting, statusOf := P.openCommand }
      else
        let opened := { shut with statusOf := none, lastCommand := some b, clamped := false }
        match Command.ofCode b with
        | none => { opened with phase := .discarding, lastResult := .range }
        | some c =>
          if c.permits P.role = false then { opened with phase := .discarding, lastResult := .role }
          else { opened with phase := (if c.firstBytes = 0 then .waiting else .parameters),
                             lastResult := .incomplete }) ∧
    ((s.port p).phase = .none ∨ (s.port p).phase = .discarding →
      exec (.dataByte p b) s = .next (s.modPort p fun P => { P with partialBits := [], lastOut := none })) ∧
    ((s.port p).phase ≠ .streaming → (s.port p).outgoing = 0x00)

/-- A data byte in PARAMETERS joins the step, which waits for the arbiter once its last byte is in: the first step
of the open command, or a field or entry of a field-wise one (R163). A read's response goes out byte by byte
(R166): after n data bytes in STREAMING the outgoing byte is byte n of the response, and 00h once the response
is used up; the records and the response stay as they are. That the response pointer stops at the end of its
response is the model's choice (assumption log 20). Stated for a port at which no step waits;
SelectOpensEndsBreaksAndPauses says what a byte does at one that waits. That a byte row given within a byte takes
its place is the model's choice (assumption log 28). -/
def Obligations.DataBytesBuildStepsAndDrawResponses : Prop :=
  (∀ (s : State) (p : PortNo) (b : Byte) (width : Nat), (s.port p).transferOpen = true →
     (s.port p).phase = .parameters →
     ((∃ c : Command, (s.port p).context = none ∧ (s.port p).openCommand = some c.code ∧ width = c.firstBytes) ∨
      (∃ k field, (s.port p).context = some (.position k field) ∧ width = field.bytes) ∨
      (∃ slot index, (s.port p).context = some (.recipe slot index) ∧ width = recipeFieldBytes index) ∨
      (∃ slot row, (s.port p).context = some (.pattern slot row) ∧ width = 2)) →
     exec (.dataByte p b) s = .next (s.modPort p fun P =>
       { P with partialBits := [], lastOut := none, stepBytes := P.stepBytes ++ [b],
                phase := if width ≤ P.stepBytes.length + 1 then .waiting else .parameters })) ∧
  (∀ (s : State) (p : PortNo) (bs : List Byte), (s.port p).transferOpen = true →
     (s.port p).phase = .streaming → (s.port p).respPtr = 0 → (s.port p).partialBits = [] →
     (s.port p).lastOut = none →
     ∃ t : State, execAll (bs.map (Instr.dataByte p)) s = .next t ∧
       (t.port p).outgoing = (s.port p).response.getD bs.length 0x00 ∧
       t = s.modPort p (fun P => { P with respPtr := min P.response.length bs.length }))

/-- The select line of a port (R160, R164, R165): it opens a transfer; it ends one at a byte boundary with CDn low,
closing the command with its result unchanged; within a byte it breaks, and at a byte boundary with CDn high it
pauses, and then the command stays open in its phase, with its step bytes and its response pointer.
A port whose step waits (R163, R98, R99, R100): a bit or a byte that comes in there, and the end of the transfer
where the step is a header, a field or an entry, come after the arbiter's next service, and so after the step
itself; only an action or read that still waits is closed unserved by the transfer's end. How a byte or bit
forces the service is the model's choice (assumption log 3); so is a row that opens an open transfer (assumption
log 28). -/
def Obligations.SelectOpensEndsBreaksAndPauses : Prop :=
  (∀ (s : State) (p : PortNo) (b : Byte) (sdi cdn : Bool), s.pending = [] → (∀ q, (s.port q).held = []) →
    (s.port p).transferOpen = true → (s.port p).phase = .waiting → ∀ t : State, step s = .next t →
    exec (.dataByte p b) s = exec (.dataByte p b) t ∧ exec (.commandByte p b) s = exec (.commandByte p b) t ∧
    exec (.sckRisingEdge p sdi cdn) s = exec (.sckRisingEdge p sdi cdn) t ∧
    ((s.port p).partialBits = [] → (s.port p).context ≠ none ∨ (s.port p).openCommand = some 0x42 ∨
        (s.port p).openCommand = some 0x45 ∨ (s.port p).openCommand = some 0x46 →
      exec (.transferEnd p) s = exec (.transferEnd p) t)) ∧
  ∀ (s : State) (p : PortNo),
    exec (.transferOpen p) s = .next (s.modPort p fun P => { P with transferOpen := true, partialBits := [], lastOut := none }) ∧
    ((s.port p).transferOpen = true →
      ((s.port p).partialBits = [] →
        ((s.port p).phase ≠ .waiting ∨ ((s.port p).context = none ∧ (s.port p).openCommand ≠ some 0x42 ∧
            (s.port p).openCommand ≠ some 0x45 ∧ (s.port p).openCommand ≠ some 0x46) →
          exec (.transferEnd p) s = .next (s.modPort p fun P =>
            { P with transferOpen := false, openCommand := none, phase := .none, stepBytes := [], context := none,
                     response := [], respPtr := 0, statusOf := none })) ∧
        exec (.transferPause p) s = .next (s.modPort p fun P => { P with transferOpen := false, lastOut := none })) ∧
      ((s.port p).partialBits ≠ [] →
        exec (.transferBreak p) s
          = .next (s.modPort p fun P => { P with transferOpen := false, partialBits := [], lastOut := none })))

/-- Rising clock edges (R160): with select high an edge is not taken; in an open transfer a bit joins the byte; and
eight edges, most significant bit first, make the byte that the level of CDn at the eighth calls a command byte
(low) or a data byte (high). -/
def Obligations.EightClockEdgesMakeOneByte : Prop :=
  ∀ (s : State) (p : PortNo) (b : Byte) (sdi cdn c0 c1 c2 c3 c4 c5 c6 : Bool),
    ((s.port p).transferOpen = false → exec (.sckRisingEdge p sdi cdn) s = .next s) ∧
    ((s.port p).transferOpen = true → (s.port p).isWaiting = false →
      ((s.port p).partialBits.length < 7 →
        exec (.sckRisingEdge p sdi cdn) s
          = .next (s.modPort p fun P => { P with partialBits := P.partialBits ++ [sdi] })) ∧
      ((s.port p).partialBits = [] →
        execAll [.sckRisingEdge p (b.getLsbD 7) c0, .sckRisingEdge p (b.getLsbD 6) c1,
                 .sckRisingEdge p (b.getLsbD 5) c2, .sckRisingEdge p (b.getLsbD 4) c3,
                 .sckRisingEdge p (b.getLsbD 3) c4, .sckRisingEdge p (b.getLsbD 2) c5,
                 .sckRisingEdge p (b.getLsbD 1) c6, .sckRisingEdge p (b.getLsbD 0) cdn] s
          = exec (if cdn then .dataByte p b else .commandByte p b) s))

/-- A whole command row is the command byte and the data bytes that spell it, and then the arbiter's turn: the
model's reading of the table's rows (assumption log 2).
A command outside the port's role is refused with ROLE: nothing changes but the port, which discards what
follows. -/
def Obligations.WholeCommandIsItsBytesAndATurn : Prop :=
  (∀ (s : State) (i : Instr) (p : PortNo) (c : Command) (bs : List Byte),
     i.spells = some (p, c, bs) → Quiet s → s.pending = [] → (s.port p).held = [] →
     (s.port p).transferOpen = true → (s.port p).partialBits = [] → (s.port p).lastOut = none → c.permits (s.port p).role = true →
     ∃ t : State, execAll (.commandByte p c.code :: bs.map (Instr.dataByte p)) s = .next t ∧ exec i s = step t) ∧
  (∀ (s : State) (i : Instr) (p : PortNo) (c : Command) (bs : List Byte),
     i.spells = some (p, c, bs) → Quiet s → c.permits (s.port p).role = false →
     exec i s = .next (s.modPort p (Port.answered c .role false)))

/-! ### Numbers, codes and tables -/

/-- Numbers go out and come in most significant byte first (R174): n bytes carry a number modulo 256^n. The command
codes, the first-step bytes and the roles of the command table, the widths and ranges of the recipe fields, and
the widths of the fields of SET_POSITION. -/
def Obligations.NumbersAndTablesAreTheManuals : Prop :=
  (∀ n v : Nat, (beBytes n v).length = n ∧ beNat (beBytes n v) = v % 256 ^ n) ∧
  (Command.all.map (fun c => (c.code.toNat, c.firstBytes, c.permits .twist, c.permits .knot, c.permits .pack,
       c.permits .supervise)) =
     [(0x01, 0, true, true, true, true), (0x02, 0, true, true, true, true), (0x03, 2, true, true, true, true),
      (0x04, 1, true, true, true, true), (0x05, 0, true, true, true, true), (0x06, 2, true, true, true, true),
      (0x07, 0, false, false, true, true), (0x10, 1, true, false, false, false),
      (0x11, 1, true, false, false, false), (0x12, 1, true, false, false, false),
      (0x13, 1, true, false, false, false), (0x14, 1, true, false, false, false),
      (0x20, 0, false, true, false, false), (0x21, 0, false, true, false, false),
      (0x22, 3, false, true, false, false), (0x23, 0, false, true, false, false),
      (0x30, 1, false, false, true, false), (0x31, 0, false, false, true, false),
      (0x32, 0, false, false, true, false)] ++
     [(0x40, 1, false, false, false, true), (0x41, 9, false, false, false, true),
      (0x42, 1, false, false, false, true), (0x43, 5, false, false, false, true),
      (0x44, 2, false, false, false, true), (0x45, 2, false, false, false, true),
      (0x46, 2, false, false, false, true), (0x47, 3, false, false, false, true),
      (0x48, 3, false, false, false, true), (0x49, 1, false, false, false, true),
      (0x4A, 1, false, false, false, true), (0x4B, 1, false, false, false, true),
      (0x4C, 2, false, false, false, true), (0x4D, 0, false, false, false, true),
      (0x4E, 1, false, false, false, true)] ∧
   (List.range 29).map (fun i => (recipeFieldBytes i, (recipeRange i).lo, (recipeRange i).hi)) =
     [(2, 100, 60000), (1, 1, 200), (3, 100, 100000), (1, 1, 16), (1, 0, 1), (1, 1, 16), (1, -64, 63),
      (1, -64, 63), (1, 0, 1), (2, 1, 500), (3, 0, 1000000), (2, 1, 50000), (2, 1, 20000), (2, 1, 20000),
      (3, 0, 100000)] ++
     [(1, 0, 15), (2, 0, 10000), (1, 0, 1), (1, 2, 8), (2, 100, 50000), (2, 0, 5000), (2, 1, 5000),
      (2, 1, 50000), (2, 0, 10000), (2, 0, 10000), (1, 0, 8), (1, 0, 127), (2, 1, 4096), (1, 1, 32)] ∧
   ([.inService, .cRef, .pc, .np] : List PositionField).map PositionField.bytes = [1, 3, 1, 1])

/-! ### Field-wise commands -/

/-- The headers of SET_POSITION, WRITE_RECIPE and WRITE_PATTERN: a position number outside 0 to 9, a slot outside
0 to 3, a first index outside 0 to 28 or a first row outside 0 to 31 is refused with RANGE; any other header
leaves the command ready for its first field, its result still INCOMPLETE. Neither stores anything.
A field of SET_POSITION (R6, R7): refused with STATE while a calibration of the position runs, and for
in_service no while the mapped lane is in use; otherwise stored, clamped with CLAMPED, and the command goes on
to the next field or, after Np, discards.
The rows are served whole (the model's reading, assumption log 2; rows out of place: log 17). -/
def Obligations.PositionFieldsAreStoredOrRefused : Prop :=
  (∀ (s : State) (p : PortNo), Ready p .supervise s →
     (∀ k : PosNo, exec (.setPosition p (BitVec.ofNat 8 k.val)) s
       = .next (s.headed p .setPosition (.position k .inService))) ∧
     (∀ b : Byte, 10 ≤ b.toNat → exec (.setPosition p b) s = .next (s.answered p .setPosition .range false)) ∧
     (∀ (slot : SlotNo) (first : Fin 29), exec (.writeRecipe p (BitVec.ofNat 8 slot.val) (BitVec.ofNat 8 first.val)) s
       = .next (s.headed p .writeRecipe (.recipe slot first.val))) ∧
     (∀ b first : Byte, 4 ≤ b.toNat ∨ 29 ≤ first.toNat →
       exec (.writeRecipe p b first) s = .next (s.answered p .writeRecipe .range false)) ∧
     (∀ (slot : SlotNo) (row : Fin 32), exec (.writePattern p (BitVec.ofNat 8 slot.val) (BitVec.ofNat 8 row.val)) s
       = .next (s.headed p .writePattern (.pattern slot row))) ∧
     (∀ b first : Byte, 4 ≤ b.toNat ∨ 32 ≤ first.toNat →
       exec (.writePattern p b first) s = .next (s.answered p .writePattern .range false))) ∧
  (∀ (s : State) (p : PortNo) (k : PosNo) (field : PositionField) (v : Nat), Quiet s → (s.port p).held = [] →
     (s.port p).phase = .parameters → (s.port p).context = some (.position k field) → v < 256 ^ field.bytes →
     let x := s.position k
     let refused : Prop := (s.cal k).state = .passA ∨ (s.cal k).state = .passB ∨
       (field = .inService ∧ v = 0 ∧ ∃ l, x.mappedLane = some l ∧ (s.lane l).state ≠ .idle)
     let stored : Position × Bool × Option PositionField :=
       match field with
       | .inService => ({ x with inService := v != 0 }, false, some .cRef)
       | .cRef => ({ x with cRef := max 100000 (min 10000000 v) }, decide (v < 100000 ∨ 10000000 < v), some .pc)
       | .pc => ({ x with pc := max 1 (min 64 v) }, decide (v < 1 ∨ 64 < v), some .np)
       | .np => ({ x with np := max 1 (min 16 v) }, decide (v < 1 ∨ 16 < v), none)
     (refused → exec (.setPositionField p field v) s = .next
       { s.modPort p (fun P => { P with phase := .discarding, stepBytes := [], context := none, lastResult := .state })
         with turn := p }) ∧
     (¬ refused → exec (.setPositionField p field v) s = .next
       { s.modPort p (fun P =>
           { P with phase := (if field = .np then .discarding else .parameters), stepBytes := [],
                    context := stored.2.2.map (.position k), lastResult := .ok, clamped := P.clamped || stored.2.1 })
         with turn := p, positions := s.positions.set k stored.1 }))

/-- A field of WRITE_RECIPE (R97, R98, R102): in a slot in use it is refused with IN_USE and ends the command's
effect; otherwise the value is clamped into the field's range, with CLAMPED, and stored in that field alone,
and the command goes on to the next index or, after field 28, discards. The set of field 26 has no range: its
bit 7 is dropped.
An entry of WRITE_PATTERN (R100, R102, R177): in a slot in use it is refused with IN_USE; otherwise bits 0 to 6
of its second byte are stored in the row of the row pointer, any other set bit gives CLAMPED, and the row
pointer advances from 31 to 0.
The fields by index: each index names its own field of the slot.
The rows are served whole (the model's reading, assumption log 2; rows out of place: log 17). -/
def Obligations.RecipeFieldsAndPatternsAreStoredOrRefused : Prop :=
  (∀ (s : State) (p : PortNo) (slot : SlotNo) (index v : Nat), Quiet s → (s.port p).held = [] →
     (s.port p).phase = .parameters → (s.port p).context = some (.recipe slot index) → index ≤ 28 →
     v < 256 ^ recipeFieldBytes index →
     let given : Int := if (index = 6 ∨ index = 7) ∧ 128 ≤ v then (v : Int) - 256 else v
     let kept : Int :=
       if index = 26 then given % 128 else max (recipeRange index).lo (min (recipeRange index).hi given)
     (InUse s slot → exec (.writeRecipeField p index v) s = .next
       { s.modPort p (fun P => { P with phase := .discarding, stepBytes := [], context := none, lastResult := .inUse })
         with turn := p }) ∧
     (¬ InUse s slot → exec (.writeRecipeField p index v) s = .next
       { s.modPort p (fun P =>
           { P with phase := (if index = 28 then .discarding else .parameters), stepBytes := [],
                    context := (if index = 28 then none else some (.recipe slot (index + 1))), lastResult := .ok,
                    clamped := P.clamped || decide (kept ≠ given) })
         with turn := p, recipes := s.recipes.set slot ((s.recipe slot).withField index kept) })) ∧
  (∀ (s : State) (p : PortNo) (slot : SlotNo) (row : Fin 32) (entry : BitVec 16), Quiet s → (s.port p).held = [] →
     (s.port p).phase = .parameters → (s.port p).context = some (.pattern slot row) →
     (InUse s slot → exec (.writePatternEntry p entry) s = .next
       { s.modPort p (fun P => { P with phase := .discarding, stepBytes := [], context := none, lastResult := .inUse })
         with turn := p }) ∧
     (¬ InUse s slot → exec (.writePatternEntry p entry) s = .next
       { s.modPort p (fun P =>
           { P with phase := .parameters, stepBytes := [], context := some (.pattern slot (row + 1)), lastResult := .ok,
                    clamped := P.clamped || decide (128 ≤ entry.toNat) })
         with turn := p, recipes := s.recipes.set slot
                { s.recipe slot with pattern := (s.recipe slot).pattern.set row (entry.setWidth 7) } })) ∧
  (∀ (r : Recipe) (v : Int),
     r.withField 0 v = { r with targetTpm := v.toNat } ∧
     r.withField 1 v = { r with tolPm := v.toNat } ∧
     r.withField 2 v = { r with windowMm := v.toNat } ∧
     r.withField 3 v = { r with period := v.toNat } ∧
     r.withField 4 v = { r with twoStep := v != 0 } ∧
     r.withField 5 v = { r with threshold := v.toNat } ∧
     r.withField 6 v = { r with trimMin := v } ∧
     r.withField 7 v = { r with trimMax := v } ∧
     r.withField 8 v = { r with trimStart := if v = 0 then .mid else .keep } ∧
     r.withField 9 v = { r with slipPm := v.toNat } ∧
     r.withField 10 v = { r with threadMm := v.toNat } ∧
     r.withField 11 v = { r with spliceMaxMm := v.toNat } ∧
     r.withField 12 v = { r with coilM := v.toNat } ∧
     r.withField 13 v = { r with minCoilM := v.toNat } ∧
     r.withField 14 v = { r with overlengthMm := v.toNat } ∧
     r.withField 15 v = { r with maxSplices := v.toNat } ∧
     r.withField 16 v = { r with spliceClearMm := v.toNat } ∧
     r.withField 17 v = { r with stopOnFault := v != 0 } ∧
     r.withField 18 v = { r with netWidth := v.toNat } ∧
     r.withField 19 v = { r with pitch := v.toNat } ∧
     r.withField 20 v = { r with allowance := v.toNat } ∧
     r.withField 21 v = { r with feedTol := v.toNat } ∧
     r.withField 22 v = { r with rowTimeout := v.toNat } ∧
     r.withField 23 v = { r with leadInMm := v.toNat } ∧
     r.withField 24 v = { r with tailMm := v.toNat } ∧
     r.withField 25 v = { r with selvedgeRows := v.toNat } ∧
     r.withField 26 v = { r with selvedgeMask := BitVec.ofInt 7 v } ∧
     r.withField 27 v = { r with panelRows := v.toNat } ∧
     r.withField 28 v = { r with patternLen := v.toNat })

/-- No field of a recipe slot changes while the slot is in use (the law of R102): not at one service of the
arbiter, and not at any command row but a reset, taken with no other step waiting. -/
def Obligations.SlotInUseDoesNotChange : Prop :=
  ∀ (s : State) (i : SlotNo), InUse s i →
    (s.pending = [] → ∀ t : State, step s = .next t → t.recipe i = s.recipe i) ∧
    (∀ c : Instr, Quiet s → (∀ straps lines, c ≠ .powerOnReset straps lines ∧ c ≠ .hardReset straps lines) →
      ∀ t : State, exec c s = .next t → t.recipe i = s.recipe i)

/-! ### Notices and output lines -/

/-- Each request line follows its state in AUTO and is driven at the level forced otherwise (R189): ROWREQ the row
list, CUTREQ the REQUESTED entries, STOPREQ the stop reason set.
FORCE_LINE stores the setting of the line named and nothing else; a line or setting outside the codes is
refused with RANGE. -/
def Obligations.RequestLinesFollowTheirState : Prop :=
  (∀ s : State,
     (s.forcing.rowReq = .auto → (s.rowReq = true ↔ s.rows ≠ [])) ∧
     (s.forcing.cutReq = .auto → (s.cutReq = true ↔ ∃ e ∈ s.cuts.list, e.state = .requested)) ∧
     (s.forcing.stopReq = .auto → (s.stopReq = true ↔ (s.stops.rowOverrun = true ∨ s.stops.cutLate = true ∨
       s.stops.feed = true ∨ s.stops.laneFault = true))) ∧
     (s.forcing.rowReq = .low → s.rowReq = false) ∧ (s.forcing.rowReq = .high → s.rowReq = true) ∧
     (s.forcing.cutReq = .low → s.cutReq = false) ∧ (s.forcing.cutReq = .high → s.cutReq = true) ∧
     (s.forcing.stopReq = .low → s.stopReq = false) ∧ (s.forcing.stopReq = .high → s.stopReq = true)) ∧
  (∀ (s : State) (p : PortNo) (line setting : Byte), Ready p .supervise s →
     (3 ≤ line.toNat ∨ 3 ≤ setting.toNat →
       exec (.forceLine p line setting) s = .next (s.answered p .forceLine .range false)) ∧
     (∀ f : Forcing, setting = (match f with | .auto => 0x00#8 | .low => 0x01#8 | .high => 0x02#8) →
       (line = 0x00 → exec (.forceLine p line setting) s
         = .next ({ s with forcing := { s.forcing with rowReq := f } }.answered p .forceLine .ok false)) ∧
       (line = 0x01 → exec (.forceLine p line setting) s
         = .next ({ s with forcing := { s.forcing with cutReq := f } }.answered p .forceLine .ok false)) ∧
       (line = 0x02 → exec (.forceLine p line setting) s
         = .next ({ s with forcing := { s.forcing with stopReq := f } }.answered p .forceLine .ok false))))

/-- ACK_STOP (R186): bits 4 to 7 are dropped with CLAMPED; ROW_OVERRUN and FEED are removed; CUT_LATE is removed
unless a due cut is late; every recorded lane that is not in FAULT leaves the record, and LANE_FAULT goes with
the last; STOP is raised with the lanes removed when anything was removed. -/
def Obligations.AckStopRemovesWhatMayGo : Prop :=
  ∀ (s : State) (p : PortNo) (named : Byte), Ready p .supervise s →
    let u := s.stops
    let late : Prop := (∃ e ∈ s.cuts.list, e.late = true) ∨ ∃ d ∈ s.cuts.deferred, d.late = true
    ∃ v : StopUnit,
      exec (.ackStop p named) s = .next
        ((if v = u then s else State.raise .stop (u.faultRecord &&& ~~~v.faultRecord) { s with stops := v }).answered
          p .ackStop .ok (decide (16 ≤ named.toNat))) ∧
      (v.rowOverrun = true ↔ u.rowOverrun = true ∧ named.getLsbD 0 = false) ∧
      (v.cutLate = true ↔ u.cutLate = true ∧ (named.getLsbD 1 = false ∨ late)) ∧
      (v.feed = true ↔ u.feed = true ∧ named.getLsbD 2 = false) ∧
      (named.getLsbD 3 = true → u.laneFault = true →
        (∀ l : LaneNo, laneIn v.faultRecord l = true ↔ laneIn u.faultRecord l = true ∧ (s.lane l).state = .fault) ∧
        (v.laneFault = true ↔ v.faultRecord ≠ 0)) ∧
      (named.getLsbD 3 = false ∨ u.laneFault = false →
        v.faultRecord = u.faultRecord ∧ v.laneFault = u.laneFault)

/-! ### Reads -/

/-- READ_STATUS (R169): the port number, its role, the command it closed, the last command, the last result and
CLAMPED; it leaves the last command, the last result and CLAMPED as they are.
The command it closed is kept while its answer is open (the model's reading, assumption log 21). -/
def Obligations.ReadStatusReportsThePort : Prop :=
  ∀ (s : State) (p : PortNo), Quiet s → (s.port p).held = [] →
    exec (.readStatus p) s = .next
      { s.modPort p (fun P =>
          { P with
            phase := .streaming, openCommand := some 0x01, stepBytes := [], context := none, respPtr := 0,
            statusOf := P.openCommand
            response := [0x00, BitVec.ofNat 8 p.val,
              (match P.role with | .twist => 0x00#8 | .knot => 0x01#8 | .pack => 0x02#8 | .supervise => 0x03#8),
              P.openCommand.getD 0xFF, P.lastCommand.getD 0xFF,
              (match P.lastResult with
                | .ok => 0x00#8 | .role => 0x01#8 | .state => 0x02#8 | .range => 0x03#8 | .inUse => 0x04#8
                | .conflict => 0x05#8 | .notDue => 0x06#8 | .late => 0x07#8 | .order => 0x08#8 | .empty => 0x09#8
                | .incomplete => 0x0A#8),
              (if P.clamped then 0x01#8 else 0x00#8)] })
        with turn := p }

/-- A notice is raised in the notice set of every port (R180): there its kind becomes present and its lane set the
union with the lanes given, and nothing else of any record changes.
The attention line of a port is asserted while its notice set holds a kind that is present and of interest
(R183); READ_NOTICES releases it at its service, and SET_INTEREST sets it by the new mask.
SET_INTEREST stores bits 0 to 8 of its mask at its own port and drops the others with CLAMPED; the notice set
stays.
READ_NOTICES: the kinds present and the nine lane sets of the port, whose set it empties; the sets of the other
ports are not changed. -/
def Obligations.NoticesAreRaisedShownAndRead : Prop :=
  (∀ (s : State) (k : NoticeKind) (ls : LaneSet),
     (∀ (p : PortNo) (j : NoticeKind),
       ((State.raise k ls s).port p).notices.has j = (decide (j = k) || (s.port p).notices.has j) ∧
       ((State.raise k ls s).port p).notices.lanesFor j
         = if j = k then (s.port p).notices.lanesFor j ||| ls else (s.port p).notices.lanesFor j) ∧
     (∀ p : PortNo, { (State.raise k ls s).port p with notices := (s.port p).notices } = s.port p) ∧
     { State.raise k ls s with ports := s.ports } = s) ∧
  (∀ (s : State) (p : PortNo),
     (s.attention p = true ↔ ∃ k : NoticeKind, (s.port p).notices.has k = true ∧
       (s.port p).interest.getLsbD k.index.val = true) ∧
     (Quiet s → (s.port p).held = [] →
       (∃ t : State, exec (.readNotices p) s = .next t ∧ t.attention p = false) ∧
       (∀ mask : BitVec 16, ∃ t : State, exec (.setInterest p mask) s = .next t ∧
         (t.attention p = true ↔ ∃ k : NoticeKind, (s.port p).notices.has k = true ∧
           mask.getLsbD k.index.val = true)))) ∧
  (∀ (s : State) (p : PortNo) (mask : BitVec 16), Quiet s → (s.port p).held = [] →
     exec (.setInterest p mask) s = .next ((s.modPort p fun P => { P with interest := mask.setWidth 9 }).answered p
       .setInterest .ok (decide (512 ≤ mask.toNat)))) ∧
  (∀ (s : State) (p : PortNo), Quiet s → (s.port p).held = [] →
     exec (.readNotices p) s = .next
       ((s.modPort p fun P => { P with notices := { present := 0, lanes := Vector.replicate 9 0 } }).streamed p
         .readNotices .ok
         (beBytes 2 (s.port p).notices.present.toNat ++ (s.port p).notices.lanes.toList)) ∧
     ((s.port p).notices.lanes.toList.length = 9))

/-- READ_LANE: the fields of the lane record in the order of R170 and the encodings of R175; a number outside 0 to 7
is refused with RANGE, and its response is the result byte alone.
READ_TRIM: the twist fields of the lane in the order of R76; the progress is 0 outside RUN; a number outside 0 to
7 is refused with RANGE.
The byte layout is as assumption log 19 deduces it; the whole-command rows are the model's reading (log 2). -/
def Obligations.ReadLaneAndReadTrimReportTheLane : Prop :=
  (∀ (s : State) (p : PortNo) (b : Byte), Quiet s → (s.port p).held = [] →
     (8 ≤ b.toNat → exec (.readLane p b) s = .next (s.streamed p .readLane .range [])) ∧
     (∀ l : LaneNo, b = BitVec.ofNat 8 l.val →
       let x := s.lane l
       exec (.readLane p b) s = .next (s.streamed p .readLane .ok
         ([b, (match x.state with
             | .idle => 0#8 | .threading => 1#8 | .run => 2#8 | .splicing => 3#8 | .fault => 4#8 | .stopping => 5#8),
           (match x.faultCause with
             | none => 0#8 | some .trimLimit => 1#8 | some .wheelSlip => 2#8 | some .spliceOverlong => 3#8
             | some .tallyLimit => 4#8),
           (match x.position with | some k => BitVec.ofNat 8 k.val | none => 0xFF#8),
           BitVec.ofNat 8 x.slot.val,
           (match x.pendingSlot with | some i => BitVec.ofNat 8 i.val | none => 0xFF#8)] ++
          beBytes 6 (x.tally / 256) ++ [BitVec.ofNat 8 x.tally] ++
          beBytes 6 (x.tally / 256 - s.line.dCut * 1000) ++ beBytes 6 (x.tally / 256 - s.line.dKnot * 1000) ++
          beBytes 6 x.coilStart ++
          [(match x.plan.state with | .none => 0#8 | .watching => 1#8 | .due => 2#8 | .deferredEnd => 3#8)] ++
          beBytes 6 x.plan.planPos ++ [(match x.plan.reason with | .normal => 0#8 | .short => 1#8 | .endCut => 2#8)] ++
          [BitVec.ofInt 8 x.trim] ++
          (match x.lastTpm with | some v => beBytes 3 v | none => [0xFF, 0xFF, 0xFF]) ++
          beBytes 6 x.windowStart ++ beBytes 3 x.windowPulses ++ beBytes 3 x.capstanPulses ++
          [BitVec.ofNat 8 x.periodIndex, BitVec.ofNat 8 x.highCount, BitVec.ofNat 8 x.lowCount,
           (if x.limitStrike then 1#8 else 0#8), BitVec.ofNat 8 x.slipRun, BitVec.ofNat 8 x.pitchRun] ++
          (match x.spliceStart with | some v => beBytes 6 v | none => List.replicate 6 0xFF) ++
          (match x.lastRowTally with | some v => beBytes 6 v | none => List.replicate 6 0xFF) ++
          [(if x.trimLimited then 1#8 else 0#8), (if x.marksLost then 1#8 else 0#8)] ++
          beBytes 2 x.counters.windows ++ beBytes 2 x.counters.high ++ beBytes 2 x.counters.low ++
          beBytes 2 x.counters.splices ++ beBytes 2 x.counters.slips)))) ∧
  (∀ (s : State) (p : PortNo) (b : Byte), Ready p .twist s →
     (8 ≤ b.toNat → exec (.readTrim p b) s = .next (s.streamed p .readTrim .range [])) ∧
     (∀ l : LaneNo, b = BitVec.ofNat 8 l.val →
       let x := s.lane l
       exec (.readTrim p b) s = .next (s.streamed p .readTrim .ok
         ([(match x.state with
             | .idle => 0#8 | .threading => 1#8 | .run => 2#8 | .splicing => 3#8 | .fault => 4#8 | .stopping => 5#8),
           BitVec.ofInt 8 x.trim, BitVec.ofInt 8 (s.recipe x.slot).trimMin,
           BitVec.ofInt 8 (s.recipe x.slot).trimMax] ++
          (match x.lastTpm with | some v => beBytes 3 v | none => [0xFF, 0xFF, 0xFF]) ++
          [BitVec.ofNat 8 x.periodIndex, BitVec.ofNat 8 x.highCount, BitVec.ofNat 8 x.lowCount,
           (if x.limitStrike then 1#8 else 0#8), BitVec.ofNat 8 x.slipRun, (if x.trimLimited then 1#8 else 0#8)] ++
          beBytes 6 (if x.state = .run then x.tally / 256 - x.windowStart else 0)))))

/-- READ_MARKS: the summary, the count and the marks of the lane's list from the first index on, each in nineteen
bytes (R93, R178); a lane outside 0 to 7 or a first index outside 0 to 95 is refused with RANGE.
READ_PACKAGE: EMPTY, and no record, with an empty queue; else the number of packages and the head record as R179
lays it out, which stays in the queue.
The byte layout is as assumption log 19 deduces it; the whole-command rows are the model's reading (log 2). -/
def Obligations.ReadMarksAndReadPackageReportTheStore : Prop :=
  (∀ (s : State) (p : PortNo) (b first : Byte), Quiet s → (s.port p).held = [] →
     (8 ≤ b.toNat ∨ 96 ≤ first.toNat →
       exec (.readMarks p b first) s = .next (s.streamed p .readMarks .range [])) ∧
     (∀ l : LaneNo, b = BitVec.ofNat 8 l.val → first.toNat < 96 →
       exec (.readMarks p b first) s = .next (s.streamed p .readMarks .ok
         ([b] ++ beBytes 6 (s.lane l).coilStart ++
          [BitVec.ofNat 8 (s.markList l).length,
           BitVec.ofNat 8 (96 - (allLanes.map fun m => (s.markList m).length).sum),
           (if (s.lane l).marksLost then 1#8 else 0#8),
           BitVec.ofNat 8 ((s.markList l).length - first.toNat)] ++
          ((s.markList l).drop first.toNat).flatMap fun m =>
            [(match m.kind with
               | .splice => 1#8 | .twistZone => 2#8 | .slip => 3#8 | .pitch => 4#8 | .missedKnot => 5#8 | .extraKnot => 6#8),
             BitVec.ofNat 8 m.lane.val,
             BitVec.ofNat 8 (m.extent.isSome.toNat + 2 * m.sense.isSome.toNat + 4 * m.row.isSome.toNat
               + 8 * m.junction.isSome.toNat)] ++
            beBytes 6 m.position ++ beBytes 6 (m.extent.getD 0) ++
            [(match m.sense with | none => 0#8 | some .high => 1#8 | some .low => 2#8 | some .both => 3#8)] ++
            beBytes 2 (m.row.getD 0) ++ [BitVec.ofNat 8 (m.junction.getD 0)])))) ∧
  (∀ (s : State) (p : PortNo), Quiet s → (s.port p).held = [] →
     (s.port p).role = .pack ∨ (s.port p).role = .supervise →
     (s.cuts.queue = [] → exec (.readPackage p) s = .next (s.streamed p .readPackage .empty [])) ∧
     (∀ (x : Package) (rest : List Package), s.cuts.queue = x :: rest →
       exec (.readPackage p) s = .next (s.streamed p .readPackage .ok
         ([BitVec.ofNat 8 s.cuts.queue.length] ++ beBytes 2 x.number ++
          [(match x.kind with | .coil => 1#8 | .panel => 2#8),
           (match x.lane with | some l => BitVec.ofNat 8 l.val | none => 0xFF#8), BitVec.ofNat 8 x.slot.val,
           BitVec.ofNat 8 (x.flags.short.toNat + 2 * x.flags.endCut.toNat + 4 * x.flags.overlength.toNat
             + 8 * x.flags.spliceExcess.toNat + 16 * x.flags.marksIncomplete.toNat
             + 32 * x.flags.marksTruncated.toNat + 64 * x.flags.trimLimited.toNat
             + 128 * x.flags.rowsSkipped.toNat)] ++
          beBytes 2 (x.rows.getD 0) ++ [BitVec.ofNat 8 x.lengths.length] ++ x.lengths.flatMap (beBytes 4) ++
          [BitVec.ofNat 8 x.totals.splice, BitVec.ofNat 8 x.totals.twistZone, BitVec.ofNat 8 x.totals.slip,
           BitVec.ofNat 8 x.totals.pitch, BitVec.ofNat 8 x.totals.missedKnot, BitVec.ofNat 8 x.totals.extraKnot,
           BitVec.ofNat 8 x.markList.length] ++
          x.markList.flatMap fun m =>
            [(match m.kind with
               | .splice => 1#8 | .twistZone => 2#8 | .slip => 3#8 | .pitch => 4#8 | .missedKnot => 5#8 | .extraKnot => 6#8),
             BitVec.ofNat 8 m.lane.val,
             BitVec.ofNat 8 (m.extent.isSome.toNat + 2 * m.row.isSome.toNat + 4 * m.junction.isSome.toNat)] ++
            beBytes 4 m.offset ++ beBytes 4 (m.extent.getD 0) ++ beBytes 2 (m.row.getD 0) ++
            [BitVec.ofNat 8 (m.junction.getD 0)]))))

/-- READ_ROW and READ_CUTS: the panel record with the row list (R136), and the cut and package unit with every lane's
coil plan (R158), in their order.
The byte layout is as assumption log 19 deduces it; the whole-command rows are the model's reading (log 2). -/
def Obligations.ReadRowAndReadCutsReportTheSchedule : Prop :=
  ∀ (s : State) (p : PortNo),
    (Ready p .knot s →
      let q := s.panel
      let r := s.recipe s.line.lineSlot
      exec (.readRow p) s = .next (s.streamed p .readRow .ok
        ([(match q.state with | .none => 0#8 | .laying => 1#8 | .finishing => 2#8 | .cutWait => 3#8),
          (match q.netWidth with | some w => BitVec.ofNat 8 w | none => 0xFF#8)] ++
         beBytes 6 q.drawStart ++ beBytes 2 q.nextRow ++
         (match q.lastClosedRow with | some v => beBytes 2 v | none => [0xFF, 0xFF]) ++
         [(if q.tailReached then 1#8 else 0#8), (if q.halt then 1#8 else 0#8)] ++
         beBytes 2 q.rowsKnotted ++ beBytes 2 q.rowsTimedOut ++ beBytes 2 q.rowsSkipped ++
         beBytes 6 (s.line.drawTally / 256) ++
         (if q.state = .laying then
            beBytes 6 (q.drawStart + r.leadInMm * 1000 + q.nextRow * r.pitch * 100)
          else List.replicate 6 0xFF) ++
         (if q.state = .none then List.replicate 6 0xFF
          else beBytes 6 (q.drawStart + r.leadInMm * 1000 + (r.panelRows - 1) * r.pitch * 100 + r.tailMm * 1000)) ++
         [BitVec.ofNat 8 s.rows.length] ++
         s.rows.flatMap fun x =>
           beBytes 2 x.row ++ [x.expected.setWidth 8] ++ beBytes 6 x.dueDraw ++ beBytes 6 x.timeoutDraw ++
             x.captured.flatMap (beBytes 6)))) ∧
    (Ready p .pack s →
      let u := s.cuts
      let name := fun w : CutWhat =>
        match w with
        | .coil l _ => [1#8, BitVec.ofNat 8 l.val]
        | .panel _ => [2#8, 0xFF#8]
      exec (.readCuts p) s = .next (s.streamed p .readCuts .ok
        ([BitVec.ofNat 8 u.queue.length,
          BitVec.ofNat 8 (8 - u.queue.length - (u.list.filter fun e => e.state == .requested).length)] ++
         beBytes 2 u.counter ++ [BitVec.ofNat 8 u.list.length] ++
         (u.list.flatMap fun e =>
           name e.what ++
           (match e.what with
            | .coil _ .normal => [0x00#8, 0x00]
            | .coil _ .short => [0x00#8, 0x01]
            | .coil _ .endCut => [0x00#8, 0x02]
            | .panel ls => [ls, 0xFF]) ++
           beBytes 6 e.duePos ++ [(match e.state with | .held => 1#8 | .requested => 2#8), (if e.late then 1#8 else 0#8)]) ++
         [BitVec.ofNat 8 u.deferred.length] ++ (u.deferred.flatMap fun d => name d.what ++ beBytes 6 d.duePos) ++
         allLanes.flatMap fun l =>
           [(match (s.lane l).plan.state with | .none => 0#8 | .watching => 1#8 | .due => 2#8 | .deferredEnd => 3#8)] ++
             beBytes 6 (s.lane l).plan.planPos ++
             [(match (s.lane l).plan.reason with | .normal => 0#8 | .short => 1#8 | .endCut => 2#8)])))

/-- READ_LINE: the line-level records in the order of R171: mode, draw, geometry, line slots and slots in use, stop
reasons, fault record, and each request line's level and setting.
READ_CAL: the position record and the calibration record in the order of R52; a number outside 0 to 9 is refused
with RANGE. Stated for signed wheel counts that four bytes hold (assumption log 8).
The byte layout is as assumption log 19 deduces it; the whole-command rows are the model's reading (log 2). -/
def Obligations.ReadLineAndReadCalReport : Prop :=
  (∀ (s : State) (p : PortNo), Quiet s → (s.port p).held = [] →
     let setting : Forcing → Byte := fun f => match f with | .auto => 0#8 | .low => 1#8 | .high => 2#8
     ∃ stops slots : Byte,
       exec (.readLine p) s = .next (s.streamed p .readLine .ok
         ([(match s.line.mode with | .rope => 0#8 | .net => 1#8)] ++ beBytes 6 (s.line.drawTally / 256) ++
          [BitVec.ofNat 8 s.line.drawTally] ++ beBytes 3 s.line.dKnot ++ beBytes 3 s.line.dCut ++
          beBytes 4 s.line.kDraw ++
          [BitVec.ofNat 8 s.line.lineSlot.val,
           (match s.line.pendingLineSlot with | some i => BitVec.ofNat 8 i.val | none => 0xFF#8), slots, stops,
           s.stops.faultRecord] ++
          [(if s.rowReq then 1#8 else 0#8), setting s.forcing.rowReq, (if s.cutReq then 1#8 else 0#8), setting s.forcing.cutReq,
           (if s.stopReq then 1#8 else 0#8), setting s.forcing.stopReq])) ∧
       (∀ i : Fin 8, slots.getLsbD i.val = true ↔ ∃ h : i.val < 4, InUse s ⟨i.val, h⟩) ∧
       stops.toNat = s.stops.rowOverrun.toNat + 2 * s.stops.cutLate.toNat + 4 * s.stops.feed.toNat
         + 8 * s.stops.laneFault.toNat) ∧
  (∀ (s : State) (p : PortNo) (b : Byte), Ready p .supervise s →
     (10 ≤ b.toNat → exec (.readCal p b) s = .next (s.streamed p .readCal .range [])) ∧
     (∀ k : PosNo, b = BitVec.ofNat 8 k.val →
       let x := s.position k
       let c := s.cal k
       let small : Int → Prop := fun i => -2147483648 ≤ i ∧ i ≤ 2147483647
       let count : Option Int → List Byte := fun v =>
         match v with
         | some i => beBytes 4 (if i < 0 then i + 4294967296 else i).toNat
         | none => [0x80, 0x00, 0x00, 0x00]
       let factor : Option Nat → List Byte := fun v =>
         match v with
         | some n => beBytes 6 n
         | none => List.replicate 6 0xFF
       let small8 : Option Nat → Byte := fun v =>
         match v with
         | some n => BitVec.ofNat 8 n
         | none => 0xFF#8
       small c.nRun → (∀ i, c.nA = some i → small i) → (∀ i, c.nB = some i → small i) →
       exec (.readCal p b) s = .next (s.streamed p .readCal .ok
         ([(if x.inService then 1#8 else 0#8)] ++ beBytes 4 x.k ++ [(if x.kLocked then 1#8 else 0#8)] ++ beBytes 3 x.cRef ++
          [BitVec.ofNat 8 x.pc, BitVec.ofNat 8 x.np,
           (match x.mappedLane with | some l => BitVec.ofNat 8 l.val | none => 0xFF#8),
           (match c.state with | .idle => 0#8 | .passA => 1#8 | .passB => 2#8 | .done => 3#8),
           (if c.started then 1#8 else 0#8), (match c.lane with | some l => BitVec.ofNat 8 l.val | none => 0xFF#8),
           small8 c.n, small8 c.calTol] ++
          beBytes 2 c.edges ++ count (some c.nRun) ++ count c.nA ++ count c.nB ++
          factor c.kA ++ factor c.kB ++ factor c.k ++
          [(match c.result with | none => 0xFF#8 | some .pass => 1#8 | some .fail => 2#8 | some .aborted => 3#8),
           (match c.cause with | none => 0xFF#8 | some .noCount => 1#8 | some .range => 2#8 | some .tolerance => 3#8),
           (if c.stored then 1#8 else 0#8)]))))

/-! ### Lane commands -/

/-- START_LANE (R11, R12, R13): the five checks in their order; an accepted command puts the lane into THREADING
with its record set afresh and raises LANE_STATE; with a threading length of 0 the lane is in RUN when the
command has been served, with its trim, its first window and, in ROPE mode, its coil plan (R137), and no cut is due
unless the coil length is 0, which no recipe has. -/
def Obligations.StartLaneChecksAndStarts : Prop :=
  ∀ (s : State) (p : PortNo) (b : Byte), Ready p .twist s →
    (8 ≤ b.toNat → exec (.startLane p b) s = .next (s.answered p .startLane .range false)) ∧
    (∀ l : LaneNo, b = BitVec.ofNat 8 l.val →
      let x := s.lane l
      let slot := if s.line.mode = .net then s.line.lineSlot else x.slot
      let r := s.recipe slot
      let placed : Prop := ∃ k, x.position = some k ∧ (s.position k).inService = true
      let outside : Prop := s.line.mode = .net ∧ r.netWidth ≤ l.val
      let sound : Prop := r.trimMin ≤ r.trimMax ∧ r.minCoilM ≤ r.coilM ∧ 1 ≤ r.patternLen
      (x.state ≠ .idle ∨ ¬ placed → exec (.startLane p b) s = .next (s.answered p .startLane .state false)) ∧
      (x.state = .idle → placed → outside ∨ ¬ sound →
        exec (.startLane p b) s = .next (s.answered p .startLane .range false)) ∧
      (x.state = .idle → placed → ¬ outside → sound →
        (0 < r.threadMm → exec (.startLane p b) s = .next
          ((State.raise .laneState (laneBit l) (s.setLane l
            { x with
              state := .threading, tally := 0, coilStart := 0, slot := slot
              pendingSlot := if s.line.mode = .net then none else x.pendingSlot
              lastTpm := none, windowStart := 0, windowPulses := 0, capstanPulses := 0, periodIndex := 0
              highCount := 0, lowCount := 0, limitStrike := false, slipRun := 0, pitchRun := 0
              spliceStart := none, faultCause := none
              counters := { windows := 0, high := 0, low := 0, splices := 0, slips := 0 }
              marksLost := false, trimLimited := false, lastRowTally := none })).answered p .startLane .ok false)) ∧
        (r.threadMm = 0 → ∃ t : State, exec (.startLane p b) s = .next (t.answered p .startLane .ok false) ∧
          (s.line.mode = .net ∨ 0 < r.coilM → t.cuts = s.cuts ∧ t.stops = s.stops) ∧
          t.lane l =
            { x with
              state := .run, tally := 0, coilStart := 0, slot := slot
              pendingSlot := if s.line.mode = .net then none else x.pendingSlot
              trim := match r.trimStart with
                | .mid => (r.trimMin + r.trimMax).tdiv 2
                | .keep => max r.trimMin (min r.trimMax x.trim)
              lastTpm := none, windowStart := 0, windowPulses := 0, capstanPulses := 0, periodIndex := 0
              highCount := 0, lowCount := 0, limitStrike := false, slipRun := 0, pitchRun := 0
              spliceStart := none, faultCause := none
              counters := { windows := 0, high := 0, low := 0, splices := 0, slips := 0 }
              marksLost := false, trimLimited := false, lastRowTally := none
              plan := if s.line.mode = .net then x.plan
                else
                  { state := if r.coilM = 0 then .due else .watching, planPos := r.coilM * 1000000, reason := .normal } } ∧
          (∀ q, (t.port q).notices.has .laneState = true ∧ laneIn ((t.port q).notices.lanesFor .laneState) l = true ∧
            ((t.lane l).trim ≠ x.trim → (t.port q).notices.has .trim = true)) ∧
          (∀ m, m ≠ l → t.lane m = s.lane m) ∧
          t.positions = s.positions ∧ t.cals = s.cals ∧ t.recipes = s.recipes ∧ t.marks = s.marks ∧
          t.line = s.line ∧ t.panel = s.panel ∧ t.rows = s.rows ∧ t.forcing = s.forcing ∧ t.inputs = s.inputs)))

/-- STOP_LANE where no END cut falls due (R14, R15): a lane in THREADING returns to IDLE with its tally and
coil_start; a lane in IDLE or STOPPING, and a lane of the net set while a panel is open, is refused with STATE;
a number outside 0 to 7 is refused with RANGE. STOP_LANE for a lane in RUN, SPLICING or FAULT that may be
stopped (R15, R140, R142, R143): the lane goes to STOPPING, its window discarded, its open splice closed, its
fault cause gone; a calibration running on its position is aborted; and its END cut falls due: the COIL entry of
a DUE plan turns into it where it stands; else it joins the list at the cutter, REQUESTED with a free place and
HELD without, or is deferred while the list holds a PANEL entry. CUT_DUE is raised for an END cut that is
REQUESTED. An END cut at the cutter is not late, and the stop reasons stay; an entry that turns into the END cut
past its allowance is late and asks for CUT_LATE (R144), and that it asks again where it was late before is the
model's reading (assumption log 18). That a plan which becomes NONE keeps its plan_pos and reason is the model's
reading (assumption log 15). -/
def Obligations.StopLaneEndsTheRun : Prop :=
  (∀ (s : State) (p : PortNo) (b : Byte), Ready p .twist s →
     (8 ≤ b.toNat → exec (.stopLane p b) s = .next (s.answered p .stopLane .range false)) ∧
     (∀ l : LaneNo, b = BitVec.ofNat 8 l.val →
       ((s.lane l).state = .threading → exec (.stopLane p b) s = .next
         ((State.raise .laneState (laneBit l) (s.setLane l { s.lane l with state := .idle })).answered p
           .stopLane .ok false)) ∧
       ((s.lane l).state = .idle ∨ (s.lane l).state = .stopping →
         exec (.stopLane p b) s = .next (s.answered p .stopLane .state false)) ∧
       ((s.lane l).state ≠ .threading → s.line.mode = .net → s.panel.state ≠ .none →
         l.val < (s.recipe s.line.lineSlot).netWidth →
         exec (.stopLane p b) s = .next (s.answered p .stopLane .state false)))) ∧
  (∀ (s : State) (p : PortNo) (l : LaneNo), Ready p .twist s →
     let x := s.lane l
     let due := x.tally / 256 - s.line.dCut * 1000
     let past := fun pos : Nat => decide (pos + (s.recipe x.slot).overlengthMm * 1000 < due)
     (x.state = .run ∨ x.state = .splicing ∨ x.state = .fault) →
     (s.line.mode = .rope ∨ s.panel.state = .none ∨ (s.recipe s.line.lineSlot).netWidth ≤ l.val) →
     ∃ t : State, exec (.stopLane p (BitVec.ofNat 8 l.val)) s = .next (t.answered p .stopLane .ok false) ∧
       t.lane l = { x with
         state := .stopping
         windowPulses := if x.state = .run then 0 else x.windowPulses
         capstanPulses := if x.state = .run then 0 else x.capstanPulses
         periodIndex := if x.state = .run then 0 else x.periodIndex
         highCount := if x.state = .run then 0 else x.highCount
         lowCount := if x.state = .run then 0 else x.lowCount
         spliceStart := if x.state = .splicing then none else x.spliceStart
         faultCause := if x.state = .fault then none else x.faultCause
         plan := (t.lane l).plan } ∧
       (∀ m, m ≠ l → t.lane m = s.lane m ∧ t.markList m = s.markList m) ∧
       (x.state ≠ .splicing → t.marks = s.marks) ∧
       (x.state = .splicing → ∀ a, x.spliceStart = some a → t.markList l = (s.markList l).map fun m =>
         if m.kind = .splice ∧ m.extent = none then { m with extent := some (x.tally / 256 - a) } else m) ∧
       (∀ k : PosNo, t.cal k =
         if x.position = some k ∧ ((s.cal k).state = .passA ∨ (s.cal k).state = .passB) then
           { s.cal k with state := .done, result := some .aborted, cause := none }
         else s.cal k) ∧
       (x.plan.state = .due →
         (t.lane l).plan = { x.plan with state := .none } ∧
         t.cuts = { s.cuts with
           list := s.cuts.list.map fun e =>
             if e.what.isCoilOf l then { e with what := .coil l .endCut, late := past e.duePos } else e
           deferred := s.cuts.deferred.map fun d =>
             if d.what.isCoilOf l then { d with late := past d.duePos } else d } ∧
         (let late := s.cuts.list.any fun e => e.what.isCoilOf l && past e.duePos
          t.stops = (if late then { s.stops with cutLate := true } else s.stops) ∧
          (late = true → ∀ q, (t.port q).notices.has .stop = true ∧
            laneIn ((t.port q).notices.lanesFor .stop) l = true))) ∧
       (x.plan.state ≠ .due → t.stops = s.stops ∧
         ((∀ e ∈ s.cuts.list, e.what.isCoil = true) →
           (t.lane l).plan = { x.plan with state := .none } ∧
           t.cuts = { s.cuts with list := s.cuts.list ++ [
             { what := .coil l .endCut, duePos := due
               state := if s.cuts.queue.length + s.cuts.requested < 8 then .requested else .held
               late := false }] }) ∧
         ((∃ e ∈ s.cuts.list, e.what.isCoil = false) →
           (t.lane l).plan = { state := .deferredEnd, planPos := due, reason := .endCut } ∧
           t.cuts = { s.cuts with deferred := s.cuts.deferred ++ [
             { what := .coil l .endCut, duePos := due, late := false }] })) ∧
       (∀ q, (t.port q).notices.has .laneState = true ∧ laneIn ((t.port q).notices.lanesFor .laneState) l = true ∧
         ((∃ e ∈ t.cuts.list, e.what.isCoilOf l = true ∧ e.state = .requested) →
           x.plan.state = .due ∨ (∀ e ∈ s.cuts.list, e.what.isCoil = true ∧ e.what.isCoilOf l = false) →
           (t.port q).notices.has .cutDue = true ∧ laneIn ((t.port q).notices.lanesFor .cutDue) l = true)) ∧
       t.positions = s.positions ∧ t.recipes = s.recipes ∧ t.line = s.line ∧ t.panel = s.panel ∧ t.rows = s.rows ∧
       t.forcing = s.forcing ∧ t.inputs = s.inputs ∧ t.turn = s.turn ∧ t.freeTick = s.freeTick ∧
       t.pending = s.pending)

/-- SPLICE_BEGIN (R17, R71, R83, R139): refused with RANGE or STATE outside its lane and RUN; an accepted one
discards the window, aborts a calibration of the position, opens the splice at the tally, raised to coil_start,
counts it, raises LANE_STATE, and stores its open mark behind the marks at or before that point; on a full pool
the mark is lost and the rest happens. A lane whose plan is WATCHING and whose splices now break the limit gets
its plan moved ahead of the splice, as a SHORT cut, if the coil stays long enough; where the cutter is already
there, in ROPE mode, that cut falls due at once, with its entry or deferral, its late test and its notice.
SPLICE_END (R17, R72): refused with RANGE or STATE outside its lane and SPLICING; an accepted one closes the
open mark with the length of the splice, or 0 behind splice_start, and returns the lane to RUN with a new window
and a new adaptation period. -/
def Obligations.SplicesOpenAndClose : Prop :=
  (∀ (s : State) (p : PortNo) (b : Byte), Ready p .twist s →
     (8 ≤ b.toNat → exec (.spliceBegin p b) s = .next (s.answered p .spliceBegin .range false)) ∧
     (∀ l : LaneNo, b = BitVec.ofNat 8 l.val →
       let x := s.lane l
       let r := s.recipe x.slot
       let start := max (x.tally / 256) x.coilStart
       let held := (allLanes.map fun m => (s.markList m).length).sum
       let splices := ((s.markList l).filter fun m => m.kind == .splice).length + 1
       let spot : Int := (start : Int) - (r.spliceClearMm * 1000 : Nat)
       let moves : Prop := held < 96 ∧ x.plan.state = .watching ∧ r.maxSplices < splices ∧
         ((r.minCoilM * 1000000 : Nat) : Int) ≤ spot - x.coilStart ∧ spot < x.plan.planPos
       let cutter := x.tally / 256 - s.line.dCut * 1000
       let late := decide (spot.toNat + r.overlengthMm * 1000 < cutter)
       (x.state ≠ .run → exec (.spliceBegin p b) s = .next (s.answered p .spliceBegin .state false)) ∧
       (x.state = .run →
         ∃ t : State, exec (.spliceBegin p b) s = .next (t.answered p .spliceBegin .ok false) ∧
           t.lane l = { x with
             state := .splicing, windowPulses := 0, capstanPulses := 0, periodIndex := 0, highCount := 0
             lowCount := 0, spliceStart := some start
             counters := { x.counters with splices := min 65535 (x.counters.splices + 1) }
             marksLost := if held < 96 then x.marksLost else true
             plan := (t.lane l).plan } ∧
           (¬ moves → (t.lane l).plan = x.plan ∧ t.cuts = s.cuts ∧ t.stops = s.stops) ∧
           (moves → cutter < spot.toNat ∨ s.line.mode = .net →
             (t.lane l).plan = { state := .watching, planPos := spot.toNat, reason := .short } ∧ t.cuts = s.cuts ∧
             t.stops = s.stops) ∧
           (moves → spot.toNat ≤ cutter → s.line.mode = .rope →
             (t.lane l).plan = { state := .due, planPos := spot.toNat, reason := .short } ∧
             t.cuts = s.cuts.withDue (.coil l .short) spot.toNat late ∧
             t.stops = (if late then { s.stops with cutLate := true } else s.stops) ∧
             ((∃ e ∈ t.cuts.list.drop s.cuts.list.length, e.state = .requested) →
               ∀ q, (t.port q).notices.has .cutDue = true ∧ laneIn ((t.port q).notices.lanesFor .cutDue) l = true)) ∧
           (∀ q, (t.port q).notices.has .laneState = true ∧
             laneIn ((t.port q).notices.lanesFor .laneState) l = true) ∧
           (96 ≤ held → t.marks = s.marks) ∧
           (held < 96 → ∃ front back, s.markList l = front ++ back ∧
             t.markList l = front ++ { kind := .splice, lane := l, position := start, extent := none, sense := none,
                                       row := none, junction := none, made := s.marks.nextMade } :: back ∧
             (∀ m ∈ front, m.position ≤ start) ∧ (∀ m, back.head? = some m → start < m.position)) ∧
           (∀ m, m ≠ l → t.lane m = s.lane m ∧ t.markList m = s.markList m) ∧
           (∀ k : PosNo, t.cal k =
             if x.position = some k ∧ ((s.cal k).state = .passA ∨ (s.cal k).state = .passB) then
               { s.cal k with state := .done, result := some .aborted, cause := none }
             else s.cal k) ∧
           t.positions = s.positions ∧ t.recipes = s.recipes ∧ t.line = s.line ∧ t.panel = s.panel ∧
           t.rows = s.rows ∧ t.forcing = s.forcing ∧ t.inputs = s.inputs))) ∧
  (∀ (s : State) (p : PortNo) (b : Byte), Ready p .twist s →
     (8 ≤ b.toNat → exec (.spliceEnd p b) s = .next (s.answered p .spliceEnd .range false)) ∧
     (∀ l : LaneNo, b = BitVec.ofNat 8 l.val →
       let x := s.lane l
       (x.state ≠ .splicing → exec (.spliceEnd p b) s = .next (s.answered p .spliceEnd .state false)) ∧
       (∀ a, x.spliceStart = some a → x.state = .splicing →
         exec (.spliceEnd p b) s = .next
           ((State.raise .laneState (laneBit l)
             ((s.setMarkList l ((s.markList l).map fun m =>
                 if m.kind = .splice ∧ m.extent = none then { m with extent := some (x.tally / 256 - a) }
                 else m)).setLane l
               { x with
                 state := .run, spliceStart := none, windowStart := x.tally / 256, windowPulses := 0
                 capstanPulses := 0, periodIndex := 0, highCount := 0, lowCount := 0 })).answered p
             .spliceEnd .ok false))))

/-- CLEAR_LANE (R21): refused with RANGE or STATE, the latter for a lane not in FAULT or held for TALLY_LIMIT; an
accepted one returns the lane to RUN with no cause, slip_run and limit_strike 0, its trim, and a new window and
adaptation period at the tally, and raises LANE_STATE; the stop reasons stay. -/
def Obligations.ClearLaneReturnsAFaultedLane : Prop :=
  ∀ (s : State) (p : PortNo) (b : Byte), Ready p .supervise s →
    (8 ≤ b.toNat → exec (.clearLane p b) s = .next (s.answered p .clearLane .range false)) ∧
    (∀ l : LaneNo, b = BitVec.ofNat 8 l.val →
      let x := s.lane l
      (x.state ≠ .fault ∨ x.faultCause = some .tallyLimit →
        exec (.clearLane p b) s = .next (s.answered p .clearLane .state false)) ∧
      (x.state = .fault → x.faultCause ≠ some .tallyLimit →
        exec (.clearLane p b) s = .next
          ((State.raise .laneState (laneBit l) (s.setLane l
            { x with
              state := .run, faultCause := none, slipRun := 0, limitStrike := false
              windowStart := x.tally / 256, windowPulses := 0, capstanPulses := 0, periodIndex := 0
              highCount := 0, lowCount := 0 })).answered p .clearLane .ok false)))

/-- CLEAR_COUNTS (R188): the five counters of each lane in the set become 0, in any lane state; no other field of any
record changes and no notice is raised; a command closed before its byte ends INCOMPLETE with no effect. -/
def Obligations.ClearCountsClearsTheCounters : Prop :=
  ∀ (s : State) (p : PortNo) (set : Byte), Ready p .supervise s →
    (∃ t : State, exec (.clearCounts p set) s = .next (t.answered p .clearCounts .ok false) ∧
      (∀ l : LaneNo, t.lane l =
        if set.getLsbD l.val then
          { s.lane l with counters := { windows := 0, high := 0, low := 0, splices := 0, slips := 0 } }
        else s.lane l) ∧
      { t with lanes := s.lanes } = s) ∧
    ((s.port p).transferOpen = true →
      ∃ t : State, execAll [.commandByte p 0x4B, .transferEnd p] s = .next t ∧ { t with ports := s.ports } = s ∧
        (t.port p).lastResult = .incomplete ∧ ∀ q, q ≠ p → t.port q = s.port q)

/-! ### Line and position commands -/

/-- SET_MODE (R4, R192): a value that is no mode is refused with RANGE, and any mode with STATE while a lane is not
IDLE; the present mode changes nothing; a change drops every pending switch and returns the draw tally and the
panel record to their starting point, and leaves everything else. -/
def Obligations.SetModeChangesTheMode : Prop :=
  ∀ (s : State) (p : PortNo) (b : Byte), Ready p .supervise s →
    (2 ≤ b.toNat → exec (.setMode p b) s = .next (s.answered p .setMode .range false)) ∧
    (∀ m : LineMode, b = (match m with | .rope => 0x00#8 | .net => 0x01#8) →
      ((∃ l, (s.lane l).state ≠ .idle) → exec (.setMode p b) s = .next (s.answered p .setMode .state false)) ∧
      ((∀ l, (s.lane l).state = .idle) → m = s.line.mode →
        exec (.setMode p b) s = .next (s.answered p .setMode .ok false)) ∧
      ((∀ l, (s.lane l).state = .idle) → m ≠ s.line.mode →
        ∃ t : State, exec (.setMode p b) s = .next (t.answered p .setMode .ok false) ∧
          (∀ l, t.lane l = { s.lane l with pendingSlot := none }) ∧
          t.line = { s.line with mode := m, pendingLineSlot := none, drawTally := 0 } ∧
          t.panel = { state := .none, netWidth := none, drawStart := 0, nextRow := 0, lastClosedRow := none,
                      tailReached := false, halt := false, rowsKnotted := 0, rowsTimedOut := 0,
                      rowsSkipped := 0 } ∧
          { t with lanes := s.lanes, line := s.line, panel := s.panel } = s))

/-- MAP_LANE (R9): the checks in their order, RANGE, STATE, CONFLICT; the present target changes nothing; any other
accepted target frees the former position, takes the new one, and keeps both views of the map. -/
def Obligations.MapLaneKeepsBothViews : Prop :=
  ∀ (s : State) (p : PortNo) (b c : Byte), Ready p .supervise s →
    (8 ≤ b.toNat ∨ (10 ≤ c.toNat ∧ c ≠ 0xFF) →
      exec (.mapLane p b c) s = .next (s.answered p .mapLane .range false)) ∧
    (∀ (l : LaneNo) (target : Option PosNo), b = BitVec.ofNat 8 l.val →
      c = (match target with | none => 0xFF#8 | some k => BitVec.ofNat 8 k.val) →
      let x := s.lane l
      let conflict : Prop := ∃ k, target = some k ∧
        ((s.position k).inService = false ∨ ∃ m, (s.position k).mappedLane = some m ∧ m ≠ l)
      (x.state ≠ .idle → exec (.mapLane p b c) s = .next (s.answered p .mapLane .state false)) ∧
      (x.state = .idle → conflict → exec (.mapLane p b c) s = .next (s.answered p .mapLane .conflict false)) ∧
      (x.state = .idle → ¬ conflict → target = x.position →
        exec (.mapLane p b c) s = .next (s.answered p .mapLane .ok false)) ∧
      (x.state = .idle → ¬ conflict → target ≠ x.position →
        ∃ t : State, exec (.mapLane p b c) s = .next (t.answered p .mapLane .ok false) ∧
          (∀ m, t.lane m = if m = l then { x with position := target } else s.lane m) ∧
          (∀ k, t.position k =
            if target = some k then { s.position k with mappedLane := some l }
            else if x.position = some k then { s.position k with mappedLane := none }
            else s.position k) ∧
          { t with lanes := s.lanes, positions := s.positions } = s))

/-- SET_GEOMETRY and SET_FACTOR (R34, R37): SET_GEOMETRY is refused with STATE while a lane is not IDLE and stores
its three fields clamped otherwise; SET_FACTOR is refused with RANGE outside the positions and with STATE during
a calibration of the position, and otherwise stores the lock and, unless it is 0, the factor clamped. CLAMPED
shows a clamp. -/
def Obligations.GeometryAndFactorAreStoredClamped : Prop :=
  ∀ (s : State) (p : PortNo), Ready p .supervise s →
    (∀ dk dc kd : BitVec 24,
      ((∃ l, (s.lane l).state ≠ .idle) →
        exec (.setGeometry p dk dc kd) s = .next (s.answered p .setGeometry .state false)) ∧
      ((∀ l, (s.lane l).state = .idle) →
        exec (.setGeometry p dk dc kd) s = .next
          (({ s with line := { s.line with
              dKnot := min 100000 dk.toNat, dCut := min 100000 dc.toNat
              kDraw := max 12800 (min 512000 kd.toNat) } }).answered p .setGeometry .ok
            (decide (100000 < dk.toNat ∨ 100000 < dc.toNat ∨ kd.toNat < 12800 ∨ 512000 < kd.toNat))))) ∧
    (∀ (b : Byte) (v : BitVec 24) (lock : Byte),
      (10 ≤ b.toNat → exec (.setFactor p b v lock) s = .next (s.answered p .setFactor .range false)) ∧
      (∀ k : PosNo, b = BitVec.ofNat 8 k.val →
        ((s.cal k).state = .passA ∨ (s.cal k).state = .passB →
          exec (.setFactor p b v lock) s = .next (s.answered p .setFactor .state false)) ∧
        ((s.cal k).state = .idle ∨ (s.cal k).state = .done →
          exec (.setFactor p b v lock) s = .next
            (({ s with
                positions := s.positions.set k
                  { s.position k with
                    k := if v = 0 then (s.position k).k else max 12800 (min 512000 v.toNat)
                    kLocked := lock != 0 } }).answered p .setFactor .ok
              (decide (v ≠ 0 ∧ (v.toNat < 12800 ∨ 512000 < v.toNat)))))))

/-- ASSIGN_RECIPE (R105 to R108, R111): the four checks in their order; AT_CUT names the pending slot of a lane or of the
line; NOW sets an IDLE lane's slot, or the line slot, which every lane that is not IDLE takes with it,
restarted under it by its state (R70, R111: limit_strike 0, the trim from trim_start in RUN, SPLICING and FAULT, a
new window and period in RUN), and raises RECIPE with the lanes that took it, and TRIM with a lane whose trim
changed. -/
def Obligations.AssignRecipeNamesTheSlot : Prop :=
  ∀ (s : State) (p : PortNo) (b c d : Byte), Ready p .supervise s →
    ((8 ≤ b.toNat ∧ b ≠ 0x80) ∨ 4 ≤ c.toNat ∨ 2 ≤ d.toNat →
      exec (.assignRecipe p b c d) s = .next (s.answered p .assignRecipe .range false)) ∧
    (∀ i : SlotNo, c = BitVec.ofNat 8 i.val → d = 0x00 ∨ d = 0x01 →
      let r := s.recipe i
      let sound : Prop := r.trimMin ≤ r.trimMax ∧ r.minCoilM ≤ r.coilM ∧ 1 ≤ r.patternLen
      (∀ l : LaneNo, b = BitVec.ofNat 8 l.val →
        (s.line.mode = .net → exec (.assignRecipe p b c d) s = .next (s.answered p .assignRecipe .state false)) ∧
        (s.line.mode = .rope → ¬ sound →
          exec (.assignRecipe p b c d) s = .next (s.answered p .assignRecipe .range false)) ∧
        (s.line.mode = .rope → sound → d = 0x00 → (s.lane l).state ≠ .idle →
          exec (.assignRecipe p b c d) s = .next (s.answered p .assignRecipe .state false)) ∧
        (s.line.mode = .rope → sound → d = 0x00 → (s.lane l).state = .idle →
          exec (.assignRecipe p b c d) s = .next
            ((State.raise .recipe (laneBit l)
              (s.setLane l { s.lane l with slot := i, pendingSlot := none })).answered p .assignRecipe .ok false)) ∧
        (s.line.mode = .rope → sound → d = 0x01 →
          exec (.assignRecipe p b c d) s = .next
            ((s.setLane l { s.lane l with pendingSlot := some i }).answered p .assignRecipe .ok false))) ∧
      (b = 0x80 →
        (s.line.mode = .rope → exec (.assignRecipe p b c d) s = .next (s.answered p .assignRecipe .state false)) ∧
        (s.line.mode = .net → ¬ sound →
          exec (.assignRecipe p b c d) s = .next (s.answered p .assignRecipe .range false)) ∧
        (s.line.mode = .net → sound → d = 0x00 → s.panel.state ≠ .none →
          exec (.assignRecipe p b c d) s = .next (s.answered p .assignRecipe .state false)) ∧
        (s.line.mode = .net → sound → d = 0x00 → s.panel.state = .none →
          ∃ t : State, exec (.assignRecipe p b c d) s = .next (t.answered p .assignRecipe .ok false) ∧
            t.line = { s.line with lineSlot := i, pendingLineSlot := none } ∧
            (∀ l, t.lane l =
              if (s.lane l).state = .idle then s.lane l else (s.lane l).restartedUnder r i) ∧
            (∀ q, (t.port q).notices.has .recipe = true ∧ ∀ l, (s.lane l).state ≠ .idle →
              laneIn ((t.port q).notices.lanesFor .recipe) l = true ∧
              ((t.lane l).trim ≠ (s.lane l).trim → (t.port q).notices.has .trim = true ∧
                laneIn ((t.port q).notices.lanesFor .trim) l = true)) ∧
            t.positions = s.positions ∧ t.cals = s.cals ∧ t.recipes = s.recipes ∧ t.marks = s.marks ∧
            t.panel = s.panel ∧ t.rows = s.rows ∧ t.cuts = s.cuts ∧ t.stops = s.stops ∧
            t.forcing = s.forcing ∧ t.inputs = s.inputs) ∧
        (s.line.mode = .net → sound → d = 0x01 →
          exec (.assignRecipe p b c d) s = .next
            (({ s with line := { s.line with pendingLineSlot := some i } }).answered p .assignRecipe .ok false))))

/-! ### Calibration -/

/-- CALIBRATE (R43, R44): the four checks in their order; an accepted command sets the record of the position to
PASS_A, waiting for its start edge, with the mapped lane, N and the tolerance, and nothing else.
The pulses of a position (R10, R45, R47, R56): a flyer pulse and a rising capstan edge count in the open window
of the mapped lane in RUN, up to 16777215, and in no other state; a rising edge starts pass A or counts in it,
a falling edge counts in pass B, and the edge that completes a pass closes it.
The rows that close a pass make the block's own test (the model's choice, assumption log 4). -/
def Obligations.CalibrationOpensAndCountsItsEdges : Prop :=
  (∀ (s : State) (p : PortNo) (b n tol : Byte), Ready p .supervise s →
     (10 ≤ b.toNat ∨ n.toNat < 1 ∨ 64 < n.toNat ∨ tol.toNat < 1 ∨ 50 < tol.toNat →
       exec (.calibrate p b n tol) s = .next (s.answered p .calibrate .range false)) ∧
     (∀ k : PosNo, b = BitVec.ofNat 8 k.val → 1 ≤ n.toNat → n.toNat ≤ 64 → 1 ≤ tol.toNat → tol.toNat ≤ 50 →
       ((s.cal k).state = .passA ∨ (s.cal k).state = .passB ∨
           ¬ (∃ l, (s.position k).mappedLane = some l ∧ (s.lane l).state = .run) →
         exec (.calibrate p b n tol) s = .next (s.answered p .calibrate .state false)) ∧
       (∀ l, (s.cal k).state = .idle ∨ (s.cal k).state = .done → (s.position k).mappedLane = some l →
         (s.lane l).state = .run →
         exec (.calibrate p b n tol) s = .next
           (({ s with
               cals := s.cals.set k
                 { state := .passA, started := false, lane := some l, n := some n.toNat, calTol := some tol.toNat,
                   edges := 0, nRun := 0, nA := none, nB := none, kA := none, kB := none, k := none,
                   result := none, cause := none, stored := false } }).answered p .calibrate .ok false)))) ∧
  (∀ (s : State) (k : PosNo),
     let inRun : LaneNo → Prop := fun l => (s.position k).mappedLane = some l ∧ (s.lane l).state = .run
     let edgesOfPass := (s.cal k).n.getD 0 * (s.position k).pc
     (∀ l, inRun l → exec (.flyerPulse k) s = .next (s.setLane l
       { s.lane l with windowPulses := min 16777215 ((s.lane l).windowPulses + 1) })) ∧
     ((∀ l, ¬ inRun l) → exec (.flyerPulse k) s = .next s) ∧
     (let u : State :=
        match (s.position k).mappedLane with
        | some l =>
          if (s.lane l).state = .run then
            s.setLane l { s.lane l with capstanPulses := min 16777215 ((s.lane l).capstanPulses + 1) }
          else s
        | none => s
       ((s.cal k).state ≠ .passA → exec (.capstanRisingEdge k) s = .next u) ∧
       ((s.cal k).state = .passA → (s.cal k).started = false → exec (.capstanRisingEdge k) s = .next
         { u with cals := s.cals.set k { s.cal k with started := true, edges := 0, nRun := 0 } }) ∧
       ((s.cal k).state = .passA → (s.cal k).started = true →
         ((s.cal k).edges + 1 < edgesOfPass → exec (.capstanRisingEdge k) s = .next
           { u with cals := s.cals.set k { s.cal k with edges := (s.cal k).edges + 1 } }) ∧
         (edgesOfPass ≤ (s.cal k).edges + 1 → exec (.capstanRisingEdge k) s = exec (.passAClose k)
           { u with cals := s.cals.set k { s.cal k with edges := (s.cal k).edges + 1 } }))) ∧
     ((s.cal k).state ≠ .passB → exec (.capstanFallingEdge k) s = .next s) ∧
     ((s.cal k).state = .passB →
       ((s.cal k).edges < edgesOfPass → exec (.capstanFallingEdge k) s = .next
         { s with cals := s.cals.set k { s.cal k with edges := (s.cal k).edges + 1 } }) ∧
       (edgesOfPass ≤ (s.cal k).edges → exec (.capstanFallingEdge k) s = exec (.passBClose k)
         { s with cals := s.cals.set k { s.cal k with edges := (s.cal k).edges + 1 } })))

/-- The close of pass A and of pass B (R45 to R49): NO_COUNT without a positive count; a factor rounded half up from
N revolutions; the mean of the two, RANGE outside the range of the position table, TOLERANCE past the
tolerance, else PASS, which stores the factor unless it is locked; every finish raises CAL with the lane of the
record, and nothing else changes.
The event's own row makes the block's test (the model's choice, assumption log 4). -/
def Obligations.PassesCloseByTheirCounts : Prop :=
  ∀ (s : State) (k : PosNo) (n : Nat), (s.cal k).n = some n → ∀ tol : Nat, (s.cal k).calTol = some tol →
    let c := s.cal k
    let x := s.position k
    let lanes : LaneSet := match c.lane with | some l => laneBit l | none => 0
    let factor : Int → Nat := fun run => (2 * n * x.cRef * 256 + run.toNat) / (2 * run.toNat)
    let withCal : CalRecord → State := fun d => { s with cals := s.cals.set k d }
    (c.state = .passA → c.started = true → n * x.pc ≤ c.edges →
      (c.nRun ≤ 0 → exec (.passAClose k) s = .next (State.raise .cal lanes (withCal
        { c with nA := some c.nRun, state := .done, result := some .fail, cause := some .noCount }))) ∧
      (0 < c.nRun → exec (.passAClose k) s = .next (withCal
        { c with nA := some c.nRun, kA := some (factor c.nRun), state := .passB, edges := 0, nRun := 0 }))) ∧
    (∀ kA : Nat, c.kA = some kA → c.state = .passB → n * x.pc + 1 ≤ c.edges →
      let kB := factor c.nRun
      let mean := (kA + kB + 1) / 2
      let gap := (kA : Int) - kB
      let failed : CalCause → CalRecord := fun why =>
        { c with nB := some c.nRun, kB := some kB, k := some mean, state := .done, result := some .fail,
                 cause := some why }
      (c.nRun ≤ 0 → exec (.passBClose k) s = .next (State.raise .cal lanes (withCal
        { c with nB := some c.nRun, state := .done, result := some .fail, cause := some .noCount }))) ∧
      (0 < c.nRun → mean < 12800 ∨ 512000 < mean →
        exec (.passBClose k) s = .next (State.raise .cal lanes (withCal (failed .range)))) ∧
      (0 < c.nRun → 12800 ≤ mean → mean ≤ 512000 → mean * tol < gap.natAbs * 1000 →
        exec (.passBClose k) s = .next (State.raise .cal lanes (withCal (failed .tolerance)))) ∧
      (0 < c.nRun → 12800 ≤ mean → mean ≤ 512000 → gap.natAbs * 1000 ≤ mean * tol →
        exec (.passBClose k) s = .next (State.raise .cal lanes
          { (withCal { failed .range with
              result := some .pass, cause := none, stored := if x.kLocked then c.stored else true }) with
            positions := if x.kLocked then s.positions else s.positions.set k { x with k := mean } })))

/-! ### Counts and tallies -/

/-- A wheel count and the tally of its lane (R10, R26 to R29), whatever events the count causes: a forward count
adds the factor of the position, up to the ceiling; a reverse count takes it off, down to 0; an IDLE lane and a
position without a lane ignore it, and every other lane's tally stays; a running pass sums it with its sign, and
so does one that the fault of its own count aborts, which is the model's reading of an order that the manual
leaves open (assumption log 14). -/
def Obligations.WheelCountMovesTheTally : Prop :=
  ∀ (s : State) (k : PosNo),
    let kf := (s.position k).k
    let passing : Prop := ((s.cal k).state = .passA ∧ (s.cal k).started = true) ∨ (s.cal k).state = .passB
    (∃ t : State, exec (.wheelCountForward k) s = .next t ∧
      (∀ l, (s.position k).mappedLane = some l → (s.lane l).state ≠ .idle →
        (t.lane l).tally = min 256000000000000 ((s.lane l).tally + kf)) ∧
      (∀ l, (s.position k).mappedLane ≠ some l ∨ (s.lane l).state = .idle → t.lane l = s.lane l) ∧
      (passing → (t.cal k).nRun = (s.cal k).nRun + 1) ∧ (¬ passing → (t.cal k).nRun = (s.cal k).nRun)) ∧
    (∃ t : State, exec (.wheelCountReverse k) s = .next t ∧
      (∀ l, (s.position k).mappedLane = some l → (s.lane l).state ≠ .idle →
        (t.lane l).tally = (s.lane l).tally - kf) ∧
      (∀ l, (s.position k).mappedLane ≠ some l ∨ (s.lane l).state = .idle → t.lane l = s.lane l) ∧
      (passing → (t.cal k).nRun = (s.cal k).nRun - 1) ∧ (¬ passing → (t.cal k).nRun = (s.cal k).nRun))

/-- A wheel count below the ceiling, as the tests that follow it (R30, R27, R28): it moves the tally, the decoder's
reference and the calibration's sum, and then come, in this order and each where its test is met, the end of
threading, the window's end, the overlong splice and the coil cut that falls due, and the late test of the
lane's due cuts (R144, R31).
A count that meets no test of R30 therefore moves these three and makes the late test, and nothing else changes, the
lane's state, fault cause and counters included: an entry or a deferred cut past its allowance is late from that
count on and asks for CUT_LATE once, and one that a reverse count brings back is late no more. A reverse count at a
tally of 0 moves no tally and tests nothing (the model's reading, assumption log 26). That a
reverse count that moved the tally makes these tests too (R30, R31), and so may end threading or find a splice
overlong, although such a count is said to leave the state and fault cause (R28), is the model's choice (assumption log 29).
That the events are taken within the count is the model's choice (assumption log 4), and that the calibration's sum
comes first its reading (assumption log 14). -/
def Obligations.CountWithoutAnEventMovesOnlyTheTally : Prop :=
  ∀ (s : State) (k : PosNo) (l : LaneNo) (forward : Bool),
    let x := s.lane l
    let r := s.recipe x.slot
    let kf := (s.position k).k
    let after := if forward then x.tally + kf else x.tally - kf
    let um := after / 256
    let c := s.cal k
    let passing := (c.state == .passA && c.started) || c.state == .passB
    let counted : State :=
      { s with
        lanes := s.lanes.set l { x with tally := after }
        cals := if passing then s.cals.set k { c with nRun := c.nRun + if forward then 1 else -1 } else s.cals
        inputs := { s.inputs with
          wheels := s.inputs.wheels.set k
            (if forward then (!s.inputs.wheels[k].2, s.inputs.wheels[k].1)
             else (s.inputs.wheels[k].2, !s.inputs.wheels[k].1)) } }
    let moved := forward || decide (0 < x.tally)
    (s.position k).mappedLane = some l → x.state ≠ .idle → after ≤ 256000000000000 →
    (moved = false → exec (if forward then .wheelCountForward k else .wheelCountReverse k) s = .next counted) ∧
    (moved = true →
      ∃ u : State, execAll [.threadingEnd l, .windowEnd l, .spliceOverlong l, .coilCutDue l] counted = .next u ∧
        exec (if forward then .wheelCountForward k else .wheelCountReverse k) s = .next
          (u.lateTested (CutWhat.isCoilOf l)
            (fun due => decide (due + r.overlengthMm * 1000 < um - s.line.dCut * 1000)) (laneBit l))) ∧
    (¬ (x.state = .threading ∧ r.threadMm * 1000 ≤ um) →
    ¬ (x.state = .run ∧ x.windowStart + r.windowMm * 1000 ≤ um) →
    ¬ (x.state = .splicing ∧ ∃ a, x.spliceStart = some a ∧ a + r.spliceMaxMm * 1000 < um) →
    ¬ ((x.state = .run ∨ x.state = .splicing ∨ x.state = .fault) ∧ s.line.mode = .rope ∧
        x.plan.state = .watching ∧ x.plan.planPos ≤ um - s.line.dCut * 1000) →
    exec (if forward then .wheelCountForward k else .wheelCountReverse k) s = .next
      (if moved then
         counted.lateTested (CutWhat.isCoilOf l)
           (fun due => decide (due + r.overlengthMm * 1000 < um - s.line.dCut * 1000)) (laneBit l)
       else counted))

/-- The count that would pass the ceiling (R29, R20, R19, R16), as a wheel count and as the event's own row: the
tally is held at the ceiling; from RUN and SPLICING the lane enters FAULT, with its splice closed, its
calibration aborted, LANE_STATE raised, and LANE_FAULT requested exactly when its recipe asks for it or it is a
net lane of an open panel; in FAULT its cause becomes TALLY_LIMIT, with LANE_STATE where the cause changes; and
a STOPPING lane stays in STOPPING. With the tally at the ceiling, a further forward count in FAULT with
TALLY_LIMIT or in STOPPING moves the decoder's reference and a running calibration's sum and nothing else (that
its watchers make no test then is the model's reading, assumption log 26).
The event's own row makes the block's test (the model's choice, assumption log 4). -/
def Obligations.CeilingHoldsTheTally : Prop :=
  ∀ (s : State) (k : PosNo) (l : LaneNo) (i : Instr),
    (s.position k).mappedLane = some l → (s.lane l).position = some k →
    256000000000000 < (s.lane l).tally + (s.position k).k →
    (s.lane l).state ≠ .idle → (s.lane l).state ≠ .threading →
    i = .wheelCountForward k ∨ i = .tallyLimitReached l →
    let x := s.lane l
    let faults : Prop := x.state = .run ∨ x.state = .splicing
    let asks : Prop := faults ∧ ((s.recipe x.slot).stopOnFault = true ∨
      (s.line.mode = .net ∧ s.panel.state ≠ .none ∧ l.val < (s.recipe s.line.lineSlot).netWidth))
    let counting := (s.cal k).state == .passA && (s.cal k).started || (s.cal k).state == .passB
    (∃ t : State, exec i s = .next t ∧ (t.lane l).tally = 256000000000000 ∧
      (x.state = .stopping → (t.lane l).state = .stopping ∧ (t.lane l).faultCause = x.faultCause) ∧
      (x.state ≠ .stopping → (t.lane l).state = .fault ∧ (t.lane l).faultCause = some .tallyLimit) ∧
      (faults ∨ (x.state = .fault ∧ x.faultCause ≠ some .tallyLimit) →
        ∀ q, (t.port q).notices.has .laneState = true ∧ laneIn ((t.port q).notices.lanesFor .laneState) l = true) ∧
      (x.state = .splicing → (t.lane l).spliceStart = none) ∧
      (asks → t.stops.laneFault = true ∧ t.stops.faultRecord = s.stops.faultRecord ||| laneBit l ∧
        ∀ q, (t.port q).notices.has .stop = true ∧ laneIn ((t.port q).notices.lanesFor .stop) l = true) ∧
      (¬ asks → t.stops.laneFault = s.stops.laneFault ∧ t.stops.faultRecord = s.stops.faultRecord) ∧
      (faults → (s.cal k).state = .passA ∨ (s.cal k).state = .passB →
        (t.cal k).state = .done ∧ (t.cal k).result = some .aborted ∧ (t.cal k).cause = none ∧
        ∀ q, (t.port q).notices.has .cal = true) ∧
      (¬ faults → (t.cal k).state = (s.cal k).state ∧ (t.cal k).result = (s.cal k).result) ∧
      (∀ j, j ≠ k → t.cal j = s.cal j) ∧ (∀ m, m ≠ l → t.lane m = s.lane m)) ∧
    (x.tally = 256000000000000 →
      (x.state = .fault ∧ x.faultCause = some .tallyLimit) ∨ x.state = .stopping →
      exec (.tallyLimitReached l) s = .next s ∧
      exec (.wheelCountForward k) s = .next
        { s with
          cals := if counting then s.cals.set k { s.cal k with nRun := (s.cal k).nRun + 1 } else s.cals
          inputs := { s.inputs with
            wheels := s.inputs.wheels.set k (!s.inputs.wheels[k].2, s.inputs.wheels[k].1) } })

/-- The quadrature decoders (R24, R32): the pair after a forward and after a reverse count, for every position and
for the draw; a change of both lines gives no count and is taken as the reference, and changes nothing else.
A draw count (R32, R33): the draw tally moves by K_draw between 0 and its ceiling in every case, and then come, each
where its test is met, the oldest row's timeout (R130), the next row falling due (R118), the tail (R132) and the
late test of the panel's due cut (R144, R31); where a row falls due and the oldest one's timeout is met at once,
either of the two comes first (R125; a free value, assumption log 6). Stated for due PANEL cuts of the panel's own
lanes. That the events are taken within the count is the model's choice (assumption log 4).
With no row outstanding, and no panel or one that waits for its cut, the count makes that late test and nothing
else: the cut becomes late with CUT_LATE, stays late without a second request, or is late no more after a reverse
count. -/
def Obligations.DecodersAndDrawFollowTheirLines : Prop :=
  (∀ (s : State) (k : PosNo),
     (∃ t : State, exec (.wheelCountForward k) s = .next t ∧ t.inputs.draw = s.inputs.draw ∧
       (∀ j, j ≠ k → t.inputs.wheels[j] = s.inputs.wheels[j]) ∧
       t.inputs.wheels[k] = (match s.inputs.wheels[k] with
         | (false, false) => (true, false) | (true, false) => (true, true)
         | (true, true) => (false, true) | (false, true) => (false, false))) ∧
     (∃ t : State, exec (.wheelCountReverse k) s = .next t ∧ t.inputs.draw = s.inputs.draw ∧
       (∀ j, j ≠ k → t.inputs.wheels[j] = s.inputs.wheels[j]) ∧
       t.inputs.wheels[k] = (match s.inputs.wheels[k] with
         | (false, false) => (false, true) | (true, false) => (false, false)
         | (true, true) => (true, false) | (false, true) => (true, true))) ∧
     (∃ t : State, exec (.drawCount .forward) s = .next t ∧ t.inputs.wheels = s.inputs.wheels ∧
       t.inputs.draw = (match s.inputs.draw with
         | (false, false) => (true, false) | (true, false) => (true, true)
         | (true, true) => (false, true) | (false, true) => (false, false))) ∧
     (∃ t : State, exec (.drawCount .reverse) s = .next t ∧ t.inputs.wheels = s.inputs.wheels ∧
       t.inputs.draw = (match s.inputs.draw with
         | (false, false) => (false, true) | (true, false) => (false, false)
         | (true, true) => (true, false) | (false, true) => (true, true))) ∧
     exec (.bothLinesChange (.wheel k)) s = .next
       { s with
         inputs := { s.inputs with
           wheels := s.inputs.wheels.set k (!s.inputs.wheels[k].1, !s.inputs.wheels[k].2) } } ∧
     exec (.bothLinesChange .draw) s = .next
       { s with inputs := { s.inputs with draw := (!s.inputs.draw.1, !s.inputs.draw.2) } }) ∧
  (∀ (s : State) (d : Direction),
     let after := match d with
       | .forward => min 256000000000000 (s.line.drawTally + s.line.kDraw)
       | .reverse => s.line.drawTally - s.line.kDraw
     let past := fun due : Nat => decide (due + (s.recipe s.line.lineSlot).overlengthMm * 1000 < after / 256)
     let counted : State :=
       { s with
         line := { s.line with drawTally := after }
         inputs := { s.inputs with
           draw := match d with
             | .forward => (!s.inputs.draw.2, s.inputs.draw.1)
             | .reverse => (s.inputs.draw.2, !s.inputs.draw.1) } }
     let rc := s.recipe s.line.lineSlot
     let due := s.panel.drawStart + rc.leadInMm * 1000 + s.panel.nextRow * rc.pitch * 100
     let both := s.panel.state == .laying && decide (due ≤ after / 256) &&
       (s.rows.take 1).any fun x => decide (x.timeoutDraw ≤ after / 256)
     let timeoutFirst : List Instr := [.rowTimeout, .rowFallsDue, .tailReached]
     let rowFirst : List Instr := [.rowFallsDue, .rowTimeout, .tailReached]
     ((∀ c ∈ s.cuts.dueCuts, c.what.isCoil = true ∨ c.what = .panel (lanesBelow (s.panel.netWidth.getD 0))) →
       ∃ order ∈ (if both then [timeoutFirst, rowFirst] else [timeoutFirst]),
         ∃ u : State, execAll order { counted with freeTick := s.freeTick + both.toNat } = .next u ∧
           exec (.drawCount d) s = .next
             (u.lateTested (fun w => !w.isCoil) past (lanesBelow (s.panel.netWidth.getD 0)))) ∧
     (∃ t : State, exec (.drawCount d) s = .next t ∧ t.line = { s.line with drawTally := after }) ∧
     (s.panel.state = .none ∨ s.panel.state = .cutWait → s.rows = [] → ∀ lanes : LaneSet,
       (∀ d ∈ s.cuts.dueCuts, d.what.isCoil = true ∨ d.what = .panel lanes) →
       exec (.drawCount d) s = .next (counted.lateTested (fun w => !w.isCoil) past lanes)))

/-! ### Threading, windows and splices -/

/-- The end of threading (R13, R69, R137): the lane enters RUN with its trim set from trim_start, its first window
and its first period, and in ROPE mode a WATCHING plan a coil's length from coil_start; TRIM is raised when the
trim changed, and LANE_STATE. A cutter already at or past that plan makes its cut due at the entry: the plan is
DUE, and the cut joins the list, or is deferred, with its late test and its notices.
The event's own row makes the block's test (the model's choice, assumption log 4). -/
def Obligations.ThreadingEndsInRun : Prop :=
  ∀ (s : State) (l : LaneNo),
    let x := s.lane l
    let r := s.recipe x.slot
    let trim := match r.trimStart with
      | .mid => (r.trimMin + r.trimMax).tdiv 2
      | .keep => max r.trimMin (min r.trimMax x.trim)
    let planned := x.coilStart + r.coilM * 1000000
    let cutter := x.tally / 256 - s.line.dCut * 1000
    let late := decide (planned + r.overlengthMm * 1000 < cutter)
    let entered := s.setLane l
      { x with
        state := .run, trim := trim, windowStart := x.tally / 256, windowPulses := 0, capstanPulses := 0
        periodIndex := 0, highCount := 0, lowCount := 0
        plan := if s.line.mode = .rope then
            { state := .watching, planPos := planned, reason := .normal }
          else x.plan }
    x.state = .threading → r.threadMm * 1000 ≤ x.tally / 256 →
    (s.line.mode = .net ∨ cutter < planned →
      exec (.threadingEnd l) s = .next (State.raise .laneState (laneBit l)
        (if trim = x.trim then entered else State.raise .trim (laneBit l) entered))) ∧
    (s.line.mode = .rope → planned ≤ cutter → ∃ t : State, exec (.threadingEnd l) s = .next t ∧
      t.lanes = s.lanes.set l
        { entered.lane l with plan := { state := .due, planPos := planned, reason := .normal } } ∧
      t.cuts = s.cuts.withDue (.coil l .normal) planned late ∧
      t.stops = (if late then { s.stops with cutLate := true } else s.stops) ∧
      (∀ q, (t.port q).notices.has .laneState = true ∧ (trim ≠ x.trim → (t.port q).notices.has .trim = true) ∧
        (late = true → (t.port q).notices.has .stop = true) ∧
        ((∃ e ∈ t.cuts.list.drop s.cuts.list.length, e.state = .requested) →
          (t.port q).notices.has .cutDue = true ∧ laneIn ((t.port q).notices.lanesFor .cutDue) l = true)) ∧
      t.positions = s.positions ∧ t.cals = s.cals ∧ t.recipes = s.recipes ∧ t.marks = s.marks ∧ t.line = s.line ∧
      t.panel = s.panel ∧ t.rows = s.rows ∧ t.forcing = s.forcing ∧ t.inputs = s.inputs)

/-- What every window end measures and counts (R57, R59, R60, R62, R63, R2): the twist rounded half up and clamped,
the band test, the slip test against the capstan, slip_run and the counters; the third slip window in a row puts
the lane into FAULT with cause WHEEL_SLIP, with LANE_STATE, LANE_FAULT where it is asked for and its calibration
aborted (R19, R51), and opens no window; a window end that leaves the lane in RUN asks for nothing; the tally,
coil_start, every other lane and every position stay. That the period's counts are 0 after the WHEEL_SLIP fault
is the model's reading (assumption log 13).
The event's own row makes the block's test (the model's choice, assumption log 4). -/
def Obligations.WindowEndMeasuresAndCounts : Prop :=
  ∀ (s : State) (l : LaneNo) (k : PosNo),
    let x := s.lane l
    let q := s.position k
    let r := s.recipe x.slot
    let lw := x.tally / 256 - x.windowStart
    let tpm := min 65535 ((2 * x.windowPulses * 10 ^ 8 + q.np * lw) / (2 * q.np * lw))
    let band := r.targetTpm * r.tolPm / 1000
    let high := decide (r.targetTpm + band < tpm)
    let low := !high && decide (tpm < r.targetTpm - band)
    let cap := x.capstanPulses * q.cRef / q.pc
    let slip := decide (0 < cap ∧ (cap : Int) * r.slipPm < ((cap : Int) - lw) * 1000)
    let run := if slip then min 3 (x.slipRun + 1) else 0
    x.state = .run → x.position = some k → x.windowStart + r.windowMm * 1000 ≤ x.tally / 256 →
    ∃ t : State, exec (.windowEnd l) s = .next t ∧
      (t.lane l).lastTpm = some tpm ∧ (t.lane l).slipRun = run ∧
      (t.lane l).counters =
        { windows := min 65535 (x.counters.windows + 1)
          high := if high then min 65535 (x.counters.high + 1) else x.counters.high
          low := if low then min 65535 (x.counters.low + 1) else x.counters.low
          splices := x.counters.splices
          slips := if slip then min 65535 (x.counters.slips + 1) else x.counters.slips } ∧
      (run = 3 → (t.lane l).state = .fault ∧ (t.lane l).faultCause = some .wheelSlip ∧
        (t.lane l).windowStart = x.windowStart ∧ (t.lane l).trim = x.trim ∧
        (t.lane l).limitStrike = x.limitStrike ∧ (t.lane l).periodIndex = 0 ∧ (t.lane l).highCount = 0 ∧
        (t.lane l).lowCount = 0 ∧ FaultEntered s t l) ∧
      ((t.lane l).state = .run → (t.lane l).windowStart = x.tally / 256 ∧ (t.lane l).windowPulses = 0 ∧
        (t.lane l).capstanPulses = 0 ∧ (t.lane l).faultCause = x.faultCause ∧ t.stops = s.stops ∧
        t.cals = s.cals) ∧
      (t.lane l).tally = x.tally ∧ (t.lane l).coilStart = x.coilStart ∧ (t.lane l).plan = x.plan ∧
      (∀ m, m ≠ l → t.lane m = s.lane m ∧ t.markList m = s.markList m) ∧
      t.positions = s.positions ∧ t.recipes = s.recipes ∧ t.line = s.line ∧ t.panel = s.panel ∧
      t.rows = s.rows ∧ t.cuts = s.cuts ∧ t.forcing = s.forcing ∧ t.inputs = s.inputs

/-- The adaptation period at a window end that leaves the lane in RUN after the slip test (R64 to R67): every such
window advances the period, and one past the settling ones that is no slip window counts; at the period's last
window the wanted step is decided, applied within the recipe's limits, or blocked as a strike; the second strike
in consecutive decided periods puts the lane into FAULT with cause TRIM_LIMIT, with LANE_STATE, LANE_FAULT where
it is asked for and its calibration aborted (R19, R51), and no new window.
The event's own row makes the block's test (the model's choice, assumption log 4). -/
def Obligations.AdaptationPeriodStepsTheTrim : Prop :=
  ∀ (s : State) (l : LaneNo) (k : PosNo),
    let x := s.lane l
    let q := s.position k
    let r := s.recipe x.slot
    let lw := x.tally / 256 - x.windowStart
    let tpm := min 65535 ((2 * x.windowPulses * 10 ^ 8 + q.np * lw) / (2 * q.np * lw))
    let band := r.targetTpm * r.tolPm / 1000
    let cap := x.capstanPulses * q.cRef / q.pc
    let slip := decide (0 < cap ∧ (cap : Int) * r.slipPm < ((cap : Int) - lw) * 1000)
    let index := x.periodIndex + 1
    let counted : Prop := (if r.twoStep then r.period / 2 else 0) < index ∧ slip = false
    let hi := if counted ∧ r.targetTpm + band < tpm then x.highCount + 1 else x.highCount
    let lo := if counted ∧ tpm + band < r.targetTpm then x.lowCount + 1 else x.lowCount
    let step : Int := if r.threshold < hi ∧ lo ≤ hi then -1 else if r.threshold < lo then 1 else 0
    let inside : Prop := r.trimMin ≤ x.trim + step ∧ x.trim + step ≤ r.trimMax
    x.state = .run → x.position = some k → x.windowStart + r.windowMm * 1000 ≤ x.tally / 256 →
    (slip = true → x.slipRun + 1 < 3) →
    ∃ t : State, exec (.windowEnd l) s = .next t ∧
      (index ≠ r.period → (t.lane l).state = .run ∧ (t.lane l).periodIndex = index ∧ (t.lane l).highCount = hi ∧
        (t.lane l).lowCount = lo ∧ (t.lane l).trim = x.trim ∧ (t.lane l).limitStrike = x.limitStrike ∧
        (t.lane l).trimLimited = x.trimLimited) ∧
      (index = r.period → (t.lane l).periodIndex = 0 ∧ (t.lane l).highCount = 0 ∧ (t.lane l).lowCount = 0 ∧
        (step = 0 → (t.lane l).state = .run ∧ (t.lane l).trim = x.trim ∧ (t.lane l).limitStrike = false ∧
          (t.lane l).trimLimited = x.trimLimited) ∧
        (step ≠ 0 → inside → (t.lane l).state = .run ∧ (t.lane l).trim = x.trim + step ∧
          (t.lane l).limitStrike = false ∧ (t.lane l).trimLimited = x.trimLimited ∧
          ∀ p, (t.port p).notices.has .trim = true) ∧
        (step ≠ 0 → ¬ inside → (t.lane l).trim = x.trim ∧ (t.lane l).limitStrike = true ∧
          (t.lane l).trimLimited = true ∧ (∀ p, (t.port p).notices.has .trim = true) ∧
          (x.limitStrike = false → (t.lane l).state = .run) ∧
          (x.limitStrike = true → (t.lane l).state = .fault ∧ (t.lane l).faultCause = some .trimLimit ∧
            (t.lane l).windowStart = x.windowStart ∧ FaultEntered s t l)))

/-- The marks of a window end (R61, R62, R81, R83): an out-of-band window extends the lane's newest zone (of the
zones with the greatest end, the one made last) where that zone ends at the window's start, and makes a new zone
otherwise, raised to coil_start, none where nothing of it is left; an IN window changes no zone; a slip window
then makes a SLIP mark at the tally, raised to coil_start, in and out of band alike, at the third slip window in
a row too. A mark that finds the pool full is lost, with the lane's marks_lost. The order of making is kept as
numbers (assumption log 24).
The event's own row makes the block's test (the model's choice, assumption log 4). -/
def Obligations.OutOfBandWindowMakesOrExtendsAZone : Prop :=
  ∀ (s : State) (l : LaneNo) (k : PosNo),
    let x := s.lane l
    let q := s.position k
    let r := s.recipe x.slot
    let um := x.tally / 256
    let lw := um - x.windowStart
    let tpm := min 65535 ((2 * x.windowPulses * 10 ^ 8 + q.np * lw) / (2 * q.np * lw))
    let band := r.targetTpm * r.tolPm / 1000
    let cap := x.capstanPulses * q.cRef / q.pc
    let slip := decide (0 < cap ∧ (cap : Int) * r.slipPm < ((cap : Int) - lw) * 1000)
    let sense : Option Sense :=
      if r.targetTpm + band < tpm then some .high else if tpm + band < r.targetTpm then some .low else none
    let ms := s.markList l
    let newest := (List.finRange ms.length).find? fun i => decide (IsNewestZone ms i)
    let grows := sense.isSome &&
      match newest with
      | some i => decide (ms[i].position + ms[i].extent.getD 0 = x.windowStart)
      | none => false
    let start := max x.windowStart x.coilStart
    let fresh := sense.isSome && !grows && decide (start < um)
    let room := decide (s.marksHeld < 96)
    let zoned :=
      if grows then
        ms.modify (newest.elim 0 Fin.val) fun m =>
          { m with extent := some (m.extent.getD 0 + lw), sense := if m.sense = sense then sense else some .both }
      else if fresh && room then
        placed { kind := .twistZone, lane := l, position := start, extent := some (um - start), sense := sense,
                 row := none, junction := none, made := s.marks.nextMade } ms
      else ms
    let zones := (fresh && room).toNat
    let slips := (slip && decide (s.marksHeld + zones < 96)).toNat
    x.state = .run → x.position = some k → x.windowStart + r.windowMm * 1000 ≤ um →
    ∃ t : State, exec (.windowEnd l) s = .next t ∧
      t.markList l =
        (if slips = 1 then
           placed { kind := .slip, lane := l, position := max um x.coilStart, extent := none, sense := none,
                    row := none, junction := none, made := s.marks.nextMade + zones } zoned
         else zoned) ∧
      (∀ m, m ≠ l → t.markList m = s.markList m) ∧ t.marks.nextMade = s.marks.nextMade + zones + slips ∧
      (t.lane l).marksLost =
        (x.marksLost || (fresh && !room) || (slip && decide (96 ≤ s.marksHeld + zones)))

/-- An overlong splice and the entry into FAULT (R73, R19, R51, R185): the open mark is closed with the distance run,
the lane enters FAULT with cause SPLICE_OVERLONG and its trim, a calibration of its position is aborted, and
LANE_FAULT is requested with the lane exactly when its recipe asks for it or it is a net lane of an open panel.
The event's own row makes the block's test (the model's choice, assumption log 4). -/
def Obligations.OverlongSpliceFaultsTheLane : Prop :=
  ∀ (s : State) (l : LaneNo),
    let x := s.lane l
    let r := s.recipe x.slot
    let asks : Prop := r.stopOnFault = true ∨
      (s.line.mode = .net ∧ s.panel.state ≠ .none ∧ l.val < (s.recipe s.line.lineSlot).netWidth)
    ∀ a : Nat, x.spliceStart = some a → x.state = .splicing →
    (x.tally / 256 ≤ a + r.spliceMaxMm * 1000 → exec (.spliceOverlong l) s = .next s) ∧
    (a + r.spliceMaxMm * 1000 < x.tally / 256 →
      ∃ t : State, exec (.spliceOverlong l) s = .next t ∧
        t.lane l = { x with state := .fault, faultCause := some .spliceOverlong, spliceStart := none } ∧
        (∀ m, m ≠ l → t.lane m = s.lane m ∧ t.markList m = s.markList m) ∧
        t.markList l = (s.markList l).map (fun m =>
          if m.kind = .splice ∧ m.extent = none then { m with extent := some (x.tally / 256 - a) } else m) ∧
        (∀ k : PosNo, t.cal k =
          if x.position = some k ∧ ((s.cal k).state = .passA ∨ (s.cal k).state = .passB) then
            { s.cal k with state := .done, result := some .aborted, cause := none }
          else s.cal k) ∧
        (asks → t.stops = { s.stops with laneFault := true, faultRecord := s.stops.faultRecord ||| laneBit l } ∧
          ∀ p, (t.port p).notices.has .stop = true) ∧
        (¬ asks → t.stops = s.stops) ∧ (∀ p, (t.port p).notices.has .laneState = true) ∧
        t.positions = s.positions ∧ t.recipes = s.recipes ∧ t.line = s.line ∧ t.panel = s.panel ∧
        t.rows = s.rows ∧ t.cuts = s.cuts ∧ t.forcing = s.forcing ∧ t.inputs = s.inputs)

/-! ### The mark store -/

/-- A mark handed to the store (R81, R82, R83, R86): with a free entry it joins its lane's list behind every mark at
or before it and before the next one beyond, raised to coil_start with its extent reduced, and takes its place
in the order of making; on a full pool it is lost and its lane's marks_lost is set. Nothing else changes. That
order is kept as numbers (assumption log 24). -/
def Obligations.HandedMarkIsStoredOrLost : Prop :=
  ∀ (s : State) (m : Mark),
    let start := (s.lane m.lane).coilStart
    let kept : Mark := { m with
      position := max start m.position, extent := m.extent.map (· - (start - m.position)), made := s.marks.nextMade }
    (96 ≤ s.marksHeld → handMark m s = s.setLane m.lane { s.lane m.lane with marksLost := true }) ∧
    (s.marksHeld < 96 →
      (handMark m s).marksHeld = s.marksHeld + 1 ∧
      (∃ front back, s.markList m.lane = front ++ back ∧ (handMark m s).markList m.lane = front ++ kept :: back ∧
        (∀ n ∈ front, n.position ≤ kept.position) ∧ (∀ n, back.head? = some n → kept.position < n.position)) ∧
      (∀ l, l ≠ m.lane → (handMark m s).markList l = s.markList l) ∧
      (handMark m s).marks.nextMade = s.marks.nextMade + 1 ∧ { handMark m s with marks := s.marks } = s)

/-! ### The knotting schedule -/

/-- PANEL_START and PANEL_HALT (R114 to R116): the three checks of PANEL_START; an opening sets the panel record
afresh at the draw coordinate, and with no lead-in row 0 falls due within it: its record joins the empty list
with ROW_DUE, the lanes of the panel are captured, and next_row is 1; PANEL_HALT sets halt in NET mode with a
panel open and is refused with STATE otherwise. -/
def Obligations.PanelOpensAndHalts : Prop :=
  ∀ (s : State) (p : PortNo), Ready p .knot s →
    let r := s.recipe s.line.lineSlot
    let draw := s.line.drawTally / 256
    let ready : Prop := s.line.mode = .net ∧ s.panel.state = .none ∧
      ∀ l : LaneNo, l.val < r.netWidth → (s.lane l).state = .run ∨ (s.lane l).state = .splicing
    (¬ ready → exec (.panelStart p) s = .next (s.answered p .panelStart .state false)) ∧
    (ready → 0 < r.leadInMm → exec (.panelStart p) s = .next
      ({ s with
          panel :=
            { state := .laying, netWidth := some r.netWidth, drawStart := s.line.drawTally / 256, nextRow := 0,
              lastClosedRow := none, tailReached := false, halt := false, rowsKnotted := 0, rowsTimedOut := 0,
              rowsSkipped := 0 } }.answered p .panelStart .ok false)) ∧
    (ready → r.leadInMm = 0 → s.rows = [] → ∃ t : State,
      exec (.panelStart p) s = .next (t.answered p .panelStart .ok false) ∧
      t.panel =
        { state := if r.panelRows = 1 then .finishing else .laying, netWidth := some r.netWidth, drawStart := draw
          nextRow := 1, lastClosedRow := none, tailReached := false, halt := false, rowsKnotted := 0
          rowsTimedOut := 0, rowsSkipped := 0 } ∧
      t.rows = [
        { row := 0, dueDraw := draw, timeoutDraw := draw + r.rowTimeout * 100
          expected := (if 0 < r.selvedgeRows then r.selvedgeMask else r.pattern[0]) &&&
            BitVec.ofNat 7 (2 ^ (r.netWidth - 1) - 1)
          captured := (allLanes.filter fun l => decide (l.val < r.netWidth)).map fun l => (s.lane l).tally / 256 }] ∧
      (∀ l, t.lane l =
        if l.val < r.netWidth then { s.lane l with lastRowTally := some ((s.lane l).tally / 256) } else s.lane l) ∧
      (∀ v, (t.port v).notices.has .rowDue = true) ∧ t.positions = s.positions ∧ t.cals = s.cals ∧ t.recipes = s.recipes ∧
      t.marks = s.marks ∧ t.line = s.line ∧ t.cuts = s.cuts ∧ t.stops = s.stops ∧ t.forcing = s.forcing ∧
      t.inputs = s.inputs) ∧
    (s.line.mode = .net → s.panel.state ≠ .none →
      exec (.panelHalt p) s = .next
        ({ s with panel := { s.panel with halt := true } }.answered p .panelHalt .ok false)) ∧
    (s.line.mode = .rope ∨ s.panel.state = .none →
      exec (.panelHalt p) s = .next (s.answered p .panelHalt .state false))

/-- A row falls due (R118 to R125): the feed check of every lane of the panel against the row before, its pitch_run,
its PITCH mark at a failure and FEED at the third; the captures; and the row joins the list with its expected
set, its due and timeout positions and ROW_DUE, or on a full list is skipped with ROW_OVERRUN, ROW_CLOSED and a
MISSED_KNOT for every junction it expects. The marks stand at the captured knotter coordinates, raised to
coil_start; with a pool that has no entry for each, no more than fit are kept, and on a full pool every lane
concerned has marks_lost. That marks of one row are made in the order of lanes and junctions is the model's
choice (assumption logs 7 and 24). Before its position the row does not fall due.
The event's own row makes the block's test (the model's choice, assumption log 4). -/
def Obligations.RowFallsDueOnTheDraw : Prop :=
  ∀ (s : State) (w : Nat), s.panel.netWidth = some w →
    let q := s.panel
    let r := q.nextRow
    let rc := s.recipe s.line.lineSlot
    let draw := s.line.drawTally / 256
    let due := q.drawStart + rc.leadInMm * 1000 + r * rc.pitch * 100
    let um := fun l : LaneNo => (s.lane l).tally / 256
    let expected := fun i : Nat =>
      (if i < rc.selvedgeRows then rc.selvedgeMask
       else rc.pattern[(i - rc.selvedgeRows) % rc.patternLen]?.getD 0) &&& BitVec.ofNat 7 (2 ^ (w - 1) - 1)
    let touching := fun l : LaneNo =>
      ([0, 1, 2, 3, 4, 5, 6].filter fun j =>
        (expected (r - 1)).getLsbD j && (j == l.val || j + 1 == l.val)).length
    let feed := fun l : LaneNo => (um l : Int) - ((s.lane l).lastRowTally.getD 0 : Nat)
    let fails := fun l : LaneNo => decide (l.val < w ∧ r ≠ 0 ∧
      rc.feedTol * 100 < (feed l - ((rc.pitch + rc.allowance * touching l) * 100 : Nat)).natAbs)
    let misses := fun l : LaneNo => decide (4 ≤ s.rows.length) && (expected r).getLsbD l.val
    let below := fun (p : LaneNo → Bool) (l : LaneNo) => (allLanes.filter fun m => decide (m < l) && p m).length
    let fed := (allLanes.filter fails).length
    let handed := fed + (allLanes.filter misses).length
    let spot := fun l : LaneNo => um l - s.line.dKnot * 1000
    let mark := fun (kind : MarkKind) (l : LaneNo) (extent junction : Option Nat) (made : Nat) =>
      ({ kind := kind, lane := l, position := max (s.lane l).coilStart (spot l), extent := extent, sense := none,
         row := some r, junction := junction, made := made } : Mark)
    let pitched := fun l : LaneNo =>
      if fails l then
        placed (mark .pitch l (some ((feed l).toNat - ((s.lane l).coilStart - spot l))) none
          (s.marks.nextMade + below fails l)) (s.markList l)
      else s.markList l
    (q.state ≠ .laying ∨ draw < due → exec .rowFallsDue s = .next s) ∧
    (q.state = .laying → due ≤ draw → ∃ t : State, exec .rowFallsDue s = .next t ∧
      t.panel.nextRow = r + 1 ∧ t.panel.state = (if r + 1 = rc.panelRows then .finishing else .laying) ∧
      (∀ l, l.val < w →
        t.lane l = { s.lane l with
          lastRowTally := some (um l), pitchRun := (t.lane l).pitchRun, marksLost := (t.lane l).marksLost } ∧
        (r = 0 → (t.lane l).pitchRun = (s.lane l).pitchRun) ∧
        (r ≠ 0 → ¬ fails l → (t.lane l).pitchRun = 0) ∧
        (fails l → (t.lane l).pitchRun = if 3 ≤ (s.lane l).pitchRun + 1 then 0 else (s.lane l).pitchRun + 1)) ∧
      (∀ l, w ≤ l.val → t.lane l = s.lane l) ∧
      (t.stops.feed = true ↔ s.stops.feed = true ∨ ∃ l, fails l ∧ 3 ≤ (s.lane l).pitchRun + 1) ∧
      (s.marksHeld + handed ≤ 96 → t.marks.nextMade = s.marks.nextMade + handed ∧ ∀ l : LaneNo,
        (t.lane l).marksLost = (s.lane l).marksLost ∧
        t.markList l =
          (if misses l then
             placed (mark .missedKnot l none (some l.val) (s.marks.nextMade + fed + below misses l)) (pitched l)
           else pitched l)) ∧
      (s.marksHeld ≤ 96 → t.marksHeld = min 96 (s.marksHeld + handed)) ∧
      (96 ≤ s.marksHeld → t.marks = s.marks ∧ ∀ l : LaneNo,
        (t.lane l).marksLost = ((s.lane l).marksLost || fails l || misses l)) ∧
      (s.rows.length < 4 →
        t.rows = s.rows ++ [
          { row := r, expected := expected r, dueDraw := draw, timeoutDraw := draw + rc.rowTimeout * 100
            captured := (allLanes.filter fun l => decide (l.val < w)).map um }] ∧
        t.panel.lastClosedRow = q.lastClosedRow ∧ t.panel.rowsSkipped = q.rowsSkipped ∧
        t.stops.rowOverrun = s.stops.rowOverrun ∧
        ∀ p, (t.port p).notices.has .rowDue = true ∧
          ∀ l, fails l → laneIn ((t.port p).notices.lanesFor .rowDue) l = true) ∧
      (4 ≤ s.rows.length →
        t.rows = s.rows ∧ t.panel.lastClosedRow = some r ∧ t.panel.rowsSkipped = q.rowsSkipped + 1 ∧
        t.stops.rowOverrun = true ∧ ∀ p, (t.port p).notices.has .rowClosed = true ∧
          (t.port p).notices.has .stop = true ∧
          ∀ l, misses l → laneIn ((t.port p).notices.lanesFor .rowClosed) l = true) ∧
      t.positions = s.positions ∧ t.recipes = s.recipes ∧ t.line = s.line ∧ t.cuts = s.cuts ∧ t.cals = s.cals ∧
      t.forcing = s.forcing ∧ t.inputs = s.inputs)

/-- KNOT_DONE (R126 to R128): STATE in ROPE mode or with no panel; the oldest row is accepted; a younger row of the
list is ORDER; a row no newer than last_closed_row is LATE; any other RANGE. An accepted row leaves the list, is
counted, and hands a MISSED_KNOT for every junction expected and not tied and an EXTRA_KNOT for every junction
tied and not expected, and ROW_CLOSED is raised with the lanes of these marks; on a pool too short for them as
many as fit are stored and each of the others is lost with its lane's marks_lost (R83; which is a free value,
assumption log 7); a dropped place of the tied set gives CLAMPED; after the last row of a finished panel whose
tail has passed the panel waits for its cut, which falls due at the draw coordinate (R132, R133). -/
def Obligations.KnotDoneClosesTheOldestRow : Prop :=
  ∀ (s : State) (p : PortNo) (row : BitVec 16) (tied : Byte), Ready p .knot s →
    let q := s.panel
    let w := q.netWidth.getD 0
    let shut : Prop := s.line.mode = .rope ∨ q.state = .none
    let late : Prop := ∃ c, q.lastClosedRow = some c ∧ row.toNat ≤ c
    (shut → exec (.knotDone p row tied) s = .next (s.answered p .knotDone .state false)) ∧
    (¬ shut → (∀ x, s.rows.head? = some x → x.row ≠ row.toNat) →
      ((∃ x ∈ s.rows, x.row = row.toNat) →
        exec (.knotDone p row tied) s = .next (s.answered p .knotDone .order false)) ∧
      ((∀ x ∈ s.rows, x.row ≠ row.toNat) →
        (late → exec (.knotDone p row tied) s = .next (s.answered p .knotDone .late false)) ∧
        (¬ late → exec (.knotDone p row tied) s = .next (s.answered p .knotDone .range false)))) ∧
    (∀ (x : RowRecord) (rest : List RowRecord), s.rows = x :: rest → ¬ shut → x.row = row.toNat →
      let knots := (tied.setWidth 7) &&& BitVec.ofNat 7 (2 ^ (w - 1) - 1)
      let missed := fun j : Nat => x.expected.getLsbD j && !knots.getLsbD j
      let extra := fun j : Nat => !x.expected.getLsbD j && knots.getLsbD j
      let unmade := fun m : Mark => { m with made := 0 }
      let handed := ([0, 1, 2, 3, 4, 5, 6].filter fun j => missed j || extra j).length
      ∃ t : State, exec (.knotDone p row tied) s = .next (t.answered p .knotDone .ok
          (tied.getLsbD 7 || (tied.setWidth 7 &&& ~~~(BitVec.ofNat 7 (2 ^ (w - 1) - 1))) != 0)) ∧
        t.rows = rest ∧ t.panel.rowsKnotted = q.rowsKnotted + 1 ∧ t.panel.rowsTimedOut = q.rowsTimedOut ∧
        t.panel.lastClosedRow = some (match q.lastClosedRow with | some c => max c x.row | none => x.row) ∧
        t.panel.state = (if q.state = .finishing ∧ rest = [] ∧ q.tailReached = true then .cutWait else q.state) ∧
        (¬ (q.state = .finishing ∧ rest = [] ∧ q.tailReached = true) → t.cuts = s.cuts) ∧
        (q.state = .finishing ∧ rest = [] ∧ q.tailReached = true →
          t.cuts = s.cuts.withDue (.panel (lanesBelow w)) (s.line.drawTally / 256) false ∧
          ((∃ e ∈ t.cuts.list.drop s.cuts.list.length, e.state = .requested) →
            ∀ v, (t.port v).notices.has .cutDue = true)) ∧
        (s.marksHeld + handed ≤ 96 → t.marksHeld = s.marksHeld + handed ∧
          ∀ j : Fin 7, missed j.val = true ∨ extra j.val = true →
            ∃ m ∈ t.markList (j.castLE (by decide)),
              m.kind = (if missed j.val = true then .missedKnot else .extraKnot) ∧ m.row = some x.row ∧
              m.junction = some j.val ∧ m.extent = none ∧
              m.position = max (s.lane (j.castLE (by decide))).coilStart
                (x.captured.getD j.val 0 - s.line.dKnot * 1000)) ∧
        (∀ l, (t.lane l) = { s.lane l with marksLost := (t.lane l).marksLost }) ∧
        (s.marksHeld + handed ≤ 96 → ∀ l, (t.lane l).marksLost = (s.lane l).marksLost) ∧
        (s.marksHeld ≤ 96 → t.marksHeld = min 96 (s.marksHeld + handed)) ∧
        (96 ≤ s.marksHeld → t.marks = s.marks) ∧
        (∀ l : LaneNo, let hands := missed l.val || extra l.val
          (hands = false → t.markList l = s.markList l ∧ (t.lane l).marksLost = (s.lane l).marksLost) ∧
          (hands = true →
            (t.markList l = s.markList l ∧ (t.lane l).marksLost = true) ∨
            ((t.markList l).map unmade =
               (placed { kind := if missed l.val then .missedKnot else .extraKnot, lane := l
                         position := max (s.lane l).coilStart (x.captured.getD l.val 0 - s.line.dKnot * 1000)
                         extent := none, sense := none, row := some x.row, junction := some l.val, made := 0 }
                 (s.markList l)).map unmade ∧
             (t.lane l).marksLost = (s.lane l).marksLost))) ∧
        (∀ v, (t.port v).notices.has .rowClosed = true ∧ ∀ l : LaneNo,
          laneIn ((t.port v).notices.lanesFor .rowClosed) l =
            (laneIn ((s.port v).notices.lanesFor .rowClosed) l || missed l.val || extra l.val)) ∧
        t.positions = s.positions ∧ t.recipes = s.recipes ∧ t.line = s.line ∧ t.cals = s.cals ∧
        t.stops = s.stops ∧ t.forcing = s.forcing ∧ t.inputs = s.inputs)

/-- The oldest row times out, and the tail is reached (R130, R132, R133): at its timeout the row leaves the list, is
counted, and hands a MISSED_KNOT for every junction it expects, with ROW_CLOSED and the lanes of these marks; on
a pool too short for them as many as fit are stored and each of the others is lost with its lane's marks_lost
(R83; which is a free value, assumption log 7); at the end of the tail tail_reached becomes yes; and when every
row has fallen due and closed and the tail has passed, the panel waits for its cut, which falls due at the draw
coordinate. Before its position neither happens.
The event's own row makes the block's test (the model's choice, assumption log 4). -/
def Obligations.RowTimesOutAndTailPasses : Prop :=
  ∀ s : State,
    let q := s.panel
    let rc := s.recipe s.line.lineSlot
    let draw := s.line.drawTally / 256
    let tail := q.drawStart + rc.leadInMm * 1000 + (rc.panelRows - 1) * rc.pitch * 100 + rc.tailMm * 1000
    let panel : CutWhat := .panel (lanesBelow (q.netWidth.getD 0))
    let unmade := fun m : Mark => { m with made := 0 }
    ((∀ x, s.rows.head? = some x → draw < x.timeoutDraw) → exec .rowTimeout s = .next s) ∧
    (∀ (x : RowRecord) (rest : List RowRecord), s.rows = x :: rest → x.timeoutDraw ≤ draw →
      let handed := ([0, 1, 2, 3, 4, 5, 6].filter fun j => x.expected.getLsbD j).length
      let ends : Prop := q.state = .finishing ∧ rest = [] ∧ q.tailReached = true
      ∃ t : State, exec .rowTimeout s = .next t ∧ t.rows = rest ∧ t.panel.rowsTimedOut = q.rowsTimedOut + 1 ∧
        t.panel.rowsKnotted = q.rowsKnotted ∧
        t.panel.lastClosedRow = some (match q.lastClosedRow with | some c => max c x.row | none => x.row) ∧
        t.panel.state = (if ends then .cutWait else q.state) ∧ (¬ ends → t.cuts = s.cuts) ∧
        (ends → t.cuts = s.cuts.withDue panel draw false) ∧
        (s.marksHeld + handed ≤ 96 → t.marksHeld = s.marksHeld + handed ∧
          ∀ j : Fin 7, x.expected.getLsbD j.val = true →
            ∃ m ∈ t.markList (j.castLE (by decide)), m.kind = .missedKnot ∧ m.row = some x.row ∧
              m.junction = some j.val ∧ m.extent = none ∧
              m.position = max (s.lane (j.castLE (by decide))).coilStart
                (x.captured.getD j.val 0 - s.line.dKnot * 1000)) ∧
        (∀ l, (t.lane l) = { s.lane l with marksLost := (t.lane l).marksLost }) ∧
        (s.marksHeld + handed ≤ 96 → ∀ l, (t.lane l).marksLost = (s.lane l).marksLost) ∧
        (s.marksHeld ≤ 96 → t.marksHeld = min 96 (s.marksHeld + handed)) ∧
        (96 ≤ s.marksHeld → t.marks = s.marks) ∧
        (∀ l : LaneNo,
          (x.expected.getLsbD l.val = false →
            t.markList l = s.markList l ∧ (t.lane l).marksLost = (s.lane l).marksLost) ∧
          (x.expected.getLsbD l.val = true →
            (t.markList l = s.markList l ∧ (t.lane l).marksLost = true) ∨
            ((t.markList l).map unmade =
               (placed { kind := .missedKnot, lane := l
                         position := max (s.lane l).coilStart (x.captured.getD l.val 0 - s.line.dKnot * 1000)
                         extent := none, sense := none, row := some x.row, junction := some l.val, made := 0 }
                 (s.markList l)).map unmade ∧
             (t.lane l).marksLost = (s.lane l).marksLost))) ∧
        (∀ v, (t.port v).notices.has .rowClosed = true ∧ ∀ l : LaneNo,
          laneIn ((t.port v).notices.lanesFor .rowClosed) l =
            (laneIn ((s.port v).notices.lanesFor .rowClosed) l || x.expected.getLsbD l.val)) ∧
        t.line = s.line ∧ t.recipes = s.recipes ∧
        t.positions = s.positions ∧ t.cals = s.cals ∧ t.stops = s.stops ∧ t.forcing = s.forcing ∧
        t.inputs = s.inputs) ∧
    (q.tailReached = true ∨ draw < tail ∨ q.state = .none ∨ q.state = .cutWait →
      exec .tailReached s = .next s) ∧
    (q.tailReached = false → tail ≤ draw → q.state = .laying ∨ q.state = .finishing →
      (q.state = .laying ∨ s.rows ≠ [] → exec .tailReached s = .next
        { s with panel := { q with tailReached := true } }) ∧
      (q.state = .finishing → s.rows = [] →
        ∃ t : State, exec .tailReached s = .next t ∧
          t.panel = { q with tailReached := true, state := .cutWait } ∧
          t.cuts = s.cuts.withDue panel draw false ∧ t.lanes = s.lanes ∧ t.marks = s.marks ∧ t.stops = s.stops ∧
          t.line = s.line ∧ t.recipes = s.recipes))

/-! ### Cuts and packages -/

/-- A coil cut falls due, and a due cut becomes late (R138, R142, R143, R144): the plan becomes DUE and its cut
joins the list with the plan's reason and position, REQUESTED with CUT_DUE while a place is free, HELD
otherwise, or is deferred while the list holds a PANEL entry; it is late with CUT_LATE from the start where the
cutter is past the allowance. An entry or a deferred cut that runs past its allowance later becomes late once
and asks for CUT_LATE, by the lane's cutter for a coil and by the draw for a panel. Short of its position
nothing happens.
The event's own row makes the block's test (the model's choice, assumption log 4). -/
def Obligations.CoilCutFallsDueAndRunsLate : Prop :=
  ∀ (s : State) (l : LaneNo),
    let x := s.lane l
    let cutter := x.tally / 256 - s.line.dCut * 1000
    let past := fun due : Nat => decide (due + (s.recipe x.slot).overlengthMm * 1000 < cutter)
    let marked := fun (sel : CutWhat → Bool) (far : Nat → Bool) =>
      { s.cuts with
        list := s.cuts.list.map fun e => if sel e.what && far e.duePos then { e with late := true } else e
        deferred := s.cuts.deferred.map fun d =>
          if sel d.what && far d.duePos then { d with late := true } else d }
    let met : Prop := x.plan.state = .watching ∧ (x.state = .run ∨ x.state = .splicing ∨ x.state = .fault) ∧
      s.line.mode = .rope ∧ x.plan.planPos ≤ cutter
    (¬ met → exec (.coilCutDue l) s = .next s) ∧
    (met → ∃ t : State, exec (.coilCutDue l) s = .next t ∧
      t.cuts = s.cuts.withDue (.coil l x.plan.reason) x.plan.planPos (past x.plan.planPos) ∧
      t.stops = (if past x.plan.planPos then { s.stops with cutLate := true } else s.stops) ∧
      (∀ p, ((∃ e ∈ t.cuts.list.drop s.cuts.list.length, e.state = .requested) →
          (t.port p).notices.has .cutDue = true ∧ laneIn ((t.port p).notices.lanesFor .cutDue) l = true) ∧
        (past x.plan.planPos = true →
          (t.port p).notices.has .stop = true ∧ laneIn ((t.port p).notices.lanesFor .stop) l = true)) ∧
      t.lanes = s.lanes.set l { x with plan := { x.plan with state := .due } } ∧ t.marks = s.marks ∧
      t.positions = s.positions ∧ t.cals = s.cals ∧ t.recipes = s.recipes ∧ t.line = s.line ∧ t.panel = s.panel ∧
      t.rows = s.rows) ∧
    (s.cuts.becomesLate (CutWhat.isCoilOf l) past = false → exec (.cutLate (.lane l)) s = .next s) ∧
    (s.cuts.becomesLate (CutWhat.isCoilOf l) past = true → exec (.cutLate (.lane l)) s = .next
      (State.raise .stop (laneBit l)
        { s with cuts := marked (CutWhat.isCoilOf l) past, stops := { s.stops with cutLate := true } })) ∧
    (∀ lanes : LaneSet, (∀ d ∈ s.cuts.dueCuts, d.what.isCoil = true ∨ d.what = .panel lanes) →
      let beyond := fun due : Nat =>
        decide (due + (s.recipe s.line.lineSlot).overlengthMm * 1000 < s.line.drawTally / 256)
      (s.cuts.becomesLate (fun w => !w.isCoil) beyond = false → exec (.cutLate .panel) s = .next s) ∧
      (s.cuts.becomesLate (fun w => !w.isCoil) beyond = true → exec (.cutLate .panel) s = .next
        (State.raise .stop lanes
          { s with cuts := marked (fun w => !w.isCoil) beyond, stops := { s.stops with cutLate := true } })))

/-- CUT_DONE at a coil (R145 to R153, R87 to R90, R109): RANGE for a byte that names nothing, NOT_DUE without a
REQUESTED entry of the name. The acceptance takes the marks behind the cut position, or all of them at an END
cut, into the package, splits those that span it, moves coil_start there, numbers and queues the package under
the slot of its rope, hands over and clears the lane's flags, and takes a pending slot with RECIPE: under it the
lane is restarted by its state (R70, R111), with TRIM when its trim changes, or keeps its trim at an END cut;
limit_strike is 0 either way. Then the lane is IDLE after an END cut, with LANE_STATE, and has a fresh plan
otherwise; every other lane stays. A PANEL cut that waited for the last COIL entry joins the list, with CUT_DUE
and its lanes where the queue has a free place; that it joins with the late field it had as a deferred cut, and
asks for no second CUT_LATE, is the model's reading (assumption log 18). -/
def Obligations.CutDoneAcceptsACoil : Prop :=
  ∀ (s : State) (p : PortNo) (b : Byte), Ready p .pack s →
    (8 ≤ b.toNat → b ≠ 0x80 → exec (.cutDone p b) s = .next (s.answered p .cutDone .range false)) ∧
    (b = 0x80 → (∀ e ∈ s.cuts.list, e.what.isCoil = false → e.state = .held) →
      exec (.cutDone p b) s = .next (s.answered p .cutDone .notDue false)) ∧
    (∀ l : LaneNo, b = BitVec.ofNat 8 l.val →
      let mine := fun e : CutEntry => e.what.isCoilOf l && e.state == .requested
      ((∀ e ∈ s.cuts.list, mine e = false) →
        exec (.cutDone p b) s = .next (s.answered p .cutDone .notDue false)) ∧
      (∀ (e : CutEntry) (reason : CutReason), s.cuts.list.find? mine = some e → e.what = .coil l reason →
        let x := s.lane l
        let r := s.recipe x.slot
        let last : Prop := reason = .endCut
        let cut := max (x.tally / 256 - s.line.dCut * 1000) x.coilStart
        let length := (if last then max (x.tally / 256) cut else cut) - x.coilStart
        let out := if last then s.markList l else goneOut cut (s.markList l)
        let stay := if last then [] else leftIn cut (s.markList l)
        let count := fun kind : MarkKind => (out.filter fun m => m.kind == kind).length
        let kept : Lane := { x with
          coilStart := cut, spliceStart := x.spliceStart.map (max cut), marksLost := false, trimLimited := false
          pendingSlot := none }
        let switched : Lane := match x.pendingSlot with
          | none => kept
          | some i => if last then { kept with slot := i, limitStrike := false } else kept.restartedUnder (s.recipe i) i
        ∃ t : State, exec (.cutDone p b) s = .next (t.answered p .cutDone .ok false) ∧
          t.cuts.queue = s.cuts.queue ++ [
            { number := s.cuts.counter, kind := .coil, lane := some l, slot := x.slot, lengths := [length / 1000]
              rows := none
              flags :=
                { short := decide (reason = .short), endCut := decide (reason = .endCut)
                  overlength := decide (r.coilM * 1000000 + r.overlengthMm * 1000 < length)
                  spliceExcess := decide (r.maxSplices < count .splice), marksIncomplete := x.marksLost
                  marksTruncated := decide (12 < out.length), trimLimited := x.trimLimited, rowsSkipped := false }
              totals :=
                { splice := count .splice, twistZone := count .twistZone, slip := count .slip
                  pitch := count .pitch, missedKnot := count .missedKnot, extraKnot := count .extraKnot }
              markList := (out.take 12).map fun m =>
                { kind := m.kind, lane := m.lane, offset := (m.position - x.coilStart) / 1000
                  extent := m.extent.map (· / 1000), row := m.row, junction := m.junction } }] ∧
          t.cuts.counter = (if s.cuts.counter = 65535 then 1 else s.cuts.counter + 1) ∧
          t.markList l = stay ∧ (∀ m, m ≠ l → t.markList m = s.markList m) ∧
          t.lane l = { switched with state := if last then .idle else x.state, plan := (t.lane l).plan } ∧
          ((∀ d ∈ s.cuts.deferred, d.what.isCoil = false) →
            (last → (t.lane l).plan = x.plan) ∧
            (¬ last → (t.lane l).plan =
              { state := .watching, planPos := cut + (s.recipe switched.slot).coilM * 1000000, reason := .normal }) ∧
            (∀ m, m ≠ l → t.lane m = s.lane m) ∧
            (s.cuts.deferred = [] ∨ (∃ e ∈ s.cuts.list.eraseP mine, e.what.isCoil = true) →
              t.cuts.list = s.cuts.list.eraseP mine ∧ t.cuts.deferred = s.cuts.deferred)) ∧
          (∀ d, s.cuts.deferred = [d] → d.what.isCoil = false → s.cuts.list.eraseP mine = [] →
            t.cuts.deferred = [] ∧ t.cuts.list = [
              { what := d.what, duePos := d.duePos, late := d.late
                state := if s.cuts.queue.length + 1 < 8 then .requested else .held }] ∧
            (s.cuts.queue.length + 1 < 8 → ∀ v, (t.port v).notices.has .cutDue = true ∧
              (t.port v).notices.lanesFor .cutDue = (s.port v).notices.lanesFor .cutDue ||| d.what.lanes)) ∧
          (∀ v, (t.port v).notices.has .package = true ∧ laneIn ((t.port v).notices.lanesFor .package) l = true ∧
            (x.pendingSlot ≠ none → (t.port v).notices.has .recipe = true ∧
              laneIn ((t.port v).notices.lanesFor .recipe) l = true) ∧
            ((t.lane l).trim ≠ x.trim → (t.port v).notices.has .trim = true ∧
              laneIn ((t.port v).notices.lanesFor .trim) l = true) ∧
            (last → (t.port v).notices.has .laneState = true ∧
              laneIn ((t.port v).notices.lanesFor .laneState) l = true)) ∧
          t.positions = s.positions ∧ t.cals = s.cals ∧
          t.recipes = s.recipes ∧ t.line = s.line ∧ t.panel = s.panel ∧ t.rows = s.rows ∧ t.stops = s.stops ∧
          t.forcing = s.forcing ∧ t.inputs = s.inputs))

/-- CUT_DONE at a panel (R146 to R152, R87 to R92, R110, R117): one package of all its lanes under the line slot of
its rope, with a length for each lane from its own coil_start to its own cut position, the panel's rows, the
totals of every mark gone out, the first twelve of them by lane and in list order, and its flags, SPLICE_EXCESS
judged lane by lane. Each lane's marks are sorted at its cut as at a coil, its coil_start and an open splice's
start move there, and its flags are cleared. A pending line switch is applied: every lane that is not IDLE takes
the slot, restarted under it by its state (R70, R111), with RECIPE, and TRIM where a trim changed. Then the
panel closes, and the next one opens unless halted or a net lane is not in RUN, SPLICING or FAULT, with row 0
due at once where there is no lead-in. Deferred END cuts join the list in the order they fell due, with CUT_DUE
while a place is free, and the plan of their lane becomes NONE (R142), its reason NORMAL or SHORT (a free value,
assumption log 15); each keeps the late field it had (assumption log 18). -/
def Obligations.CutDoneAcceptsAPanel : Prop :=
  ∀ (s : State) (p : PortNo), Ready p .pack s → ∀ (e : CutEntry) (lanes : LaneSet),
    s.cuts.list.find? (fun e => !e.what.isCoil && e.state == .requested) = some e → e.what = .panel lanes →
    let cut := fun l : LaneNo => max ((s.lane l).tally / 256 - s.line.dCut * 1000) (s.lane l).coilStart
    let ls := allLanes.filter fun l => lanes.getLsbD l.val
    let out := fun l : LaneNo => goneOut (cut l) (s.markList l)
    let gone := ls.flatMap out
    let count := fun kind : MarkKind => (gone.filter fun m => m.kind == kind).length
    let draw := s.line.drawTally / 256
    let slot := s.line.pendingLineSlot.getD s.line.lineSlot
    let next := s.recipe slot
    let opens : Prop := s.panel.halt = false ∧ ∀ l : LaneNo, l.val < next.netWidth →
      (s.lane l).state = .run ∨ (s.lane l).state = .splicing ∨ (s.lane l).state = .fault
    let kept : LaneNo → Lane := fun l =>
      if lanes.getLsbD l.val then
        { s.lane l with
          coilStart := cut l, spliceStart := (s.lane l).spliceStart.map (max (cut l)), marksLost := false
          trimLimited := false }
      else s.lane l
    let switched : LaneNo → Lane := fun l =>
      match s.line.pendingLineSlot with
      | none => kept l
      | some i => if (s.lane l).state = .idle then kept l else (kept l).restartedUnder (s.recipe i) i
    let left := s.cuts.list.eraseP fun e => !e.what.isCoil && e.state == .requested
    ∃ t : State, exec (.cutDone p 0x80) s = .next (t.answered p .cutDone .ok false) ∧
      t.cuts.queue = s.cuts.queue ++ [
        { number := s.cuts.counter, kind := .panel, lane := none, slot := s.line.lineSlot
          lengths := ls.map fun l => (cut l - (s.lane l).coilStart) / 1000
          rows := some (s.panel.rowsKnotted + s.panel.rowsTimedOut + s.panel.rowsSkipped)
          flags :=
            { short := false, endCut := false, overlength := false
              spliceExcess := ls.any fun l =>
                decide ((s.recipe s.line.lineSlot).maxSplices < ((out l).filter fun m => m.kind == .splice).length)
              marksIncomplete := ls.any fun l => (s.lane l).marksLost
              marksTruncated := decide (12 < gone.length)
              trimLimited := ls.any fun l => (s.lane l).trimLimited
              rowsSkipped := decide (0 < s.panel.rowsSkipped) }
          totals :=
            { splice := count .splice, twistZone := count .twistZone, slip := count .slip, pitch := count .pitch
              missedKnot := count .missedKnot, extraKnot := count .extraKnot }
          markList := (ls.flatMap fun l => (out l).map fun m =>
            { kind := m.kind, lane := m.lane, offset := (m.position - (s.lane l).coilStart) / 1000
              extent := m.extent.map (· / 1000), row := m.row, junction := m.junction : PackageMark }).take 12 }] ∧
      t.cuts.counter = (if s.cuts.counter = 65535 then 1 else s.cuts.counter + 1) ∧
      (∀ l, t.lane l = { switched l with
        plan := (t.lane l).plan, marksLost := (t.lane l).marksLost, lastRowTally := (t.lane l).lastRowTally }) ∧
      (∀ l : LaneNo, (opens → next.leadInMm = 0 → l.val < next.netWidth →
          (t.lane l).lastRowTally = some ((s.lane l).tally / 256)) ∧
        (¬ opens ∨ next.leadInMm ≠ 0 ∨ next.netWidth ≤ l.val →
          (t.lane l).lastRowTally = (s.lane l).lastRowTally) ∧
        ((∀ d ∈ s.cuts.deferred, d.what.isEndOf l = false) → (t.lane l).plan = (s.lane l).plan)) ∧
      (s.cuts.deferred = [] → t.cuts.list = left ∧ t.cuts.deferred = []) ∧
      (left = [] → (∀ d ∈ s.cuts.deferred, d.what.isCoil = true) →
        t.cuts.deferred = [] ∧
        t.cuts.list = s.cuts.deferred.mapIdx (fun i d =>
          { what := d.what, duePos := d.duePos, late := d.late
            state := if s.cuts.queue.length + 1 + i < 8 then .requested else .held }) ∧
        (∀ e ∈ t.cuts.list, e.state = .requested → ∀ v, (t.port v).notices.has .cutDue = true ∧
          ∀ l, e.what.isCoilOf l = true → laneIn ((t.port v).notices.lanesFor .cutDue) l = true) ∧
        ∀ l : LaneNo, (∃ d ∈ s.cuts.deferred, d.what.isEndOf l = true) →
          (t.lane l).plan.state = .none ∧ (t.lane l).plan.planPos = (s.lane l).plan.planPos ∧
          (t.lane l).plan.reason ≠ .endCut) ∧
      t.line = { s.line with lineSlot := slot, pendingLineSlot := none } ∧
      (s.rows = [] → t.stops = s.stops ∧ t.marks.nextMade = s.marks.nextMade ∧
        ∀ l, (t.lane l).marksLost = (kept l).marksLost ∧
          t.markList l = if lanes.getLsbD l.val then leftIn (cut l) (s.markList l) else s.markList l) ∧
      (¬ opens → t.panel = { s.panel with state := .none, halt := false } ∧ t.rows = s.rows) ∧
      (opens → 0 < next.leadInMm → t.rows = s.rows ∧ t.panel =
        { state := .laying, netWidth := some next.netWidth, drawStart := draw, nextRow := 0, lastClosedRow := none,
          tailReached := false, halt := false, rowsKnotted := 0, rowsTimedOut := 0, rowsSkipped := 0 }) ∧
      (opens → next.leadInMm = 0 → s.rows = [] → t.rows = [
          { row := 0, dueDraw := draw, timeoutDraw := draw + next.rowTimeout * 100
            expected := (if 0 < next.selvedgeRows then next.selvedgeMask else next.pattern[0]) &&&
              BitVec.ofNat 7 (2 ^ (next.netWidth - 1) - 1)
            captured := (allLanes.filter fun l => decide (l.val < next.netWidth)).map fun l =>
              (s.lane l).tally / 256 }] ∧
        (∀ v, (t.port v).notices.has .rowDue = true) ∧ t.panel =
        { state := if next.panelRows = 1 then .finishing else .laying, netWidth := some next.netWidth,
          drawStart := draw, nextRow := 1, lastClosedRow := none, tailReached := false, halt := false,
          rowsKnotted := 0, rowsTimedOut := 0, rowsSkipped := 0 }) ∧
      (∀ v, (t.port v).notices.has .package = true ∧
        (s.line.pendingLineSlot ≠ none → (t.port v).notices.has .recipe = true) ∧
        ∀ l, (lanes.getLsbD l.val = true → laneIn ((t.port v).notices.lanesFor .package) l = true) ∧
          (s.line.pendingLineSlot ≠ none → (s.lane l).state ≠ .idle →
            laneIn ((t.port v).notices.lanesFor .recipe) l = true) ∧
          ((t.lane l).trim ≠ (s.lane l).trim → (t.port v).notices.has .trim = true ∧
            laneIn ((t.port v).notices.lanesFor .trim) l = true)) ∧
      t.positions = s.positions ∧ t.cals = s.cals ∧ t.recipes = s.recipes ∧ t.forcing = s.forcing ∧
      t.inputs = s.inputs

/-- RELEASE_PACKAGE (R157): EMPTY with an empty queue, and nothing changes; else the head leaves the queue and the
freed place makes the oldest HELD entry REQUESTED, with CUT_DUE, or stays free; no notice is raised for the
release itself. -/
def Obligations.ReleaseFreesAPlace : Prop :=
  ∀ (s : State) (p : PortNo), Ready p .pack s →
    (s.cuts.queue = [] → exec (.releasePackage p) s = .next (s.answered p .releasePackage .empty false)) ∧
    (∀ (x : Package) (rest : List Package), s.cuts.queue = x :: rest →
      ((∀ e ∈ s.cuts.list, e.state = .requested) → exec (.releasePackage p) s = .next
        ({ s with cuts := { s.cuts with queue := rest } }.answered p .releasePackage .ok false)) ∧
      (∀ (front back : List CutEntry) (e : CutEntry), s.cuts.list = front ++ e :: back →
        (∀ f ∈ front, f.state = .requested) → e.state = .held →
        exec (.releasePackage p) s = .next
          ((State.raise .cutDue (match e.what with | .coil l _ => laneBit l | .panel lanes => lanes)
            { s with
              cuts := { s.cuts with
                queue := rest, list := front ++ { e with state := .requested } :: back } }).answered p
            .releasePackage .ok false)))

/-! ### The laws of the device -/

/-- Every law stated below holds of the state after reset (its straps and line levels are assumption logs 10, 11). -/
def Obligations.LawsHoldAtReset : Prop :=
  TallyLaw State.reset ∧ MapLaw State.reset ∧ MarkLaw State.reset ∧ PlacesLaw State.reset ∧
    NumberLaw State.reset ∧ TrimLaw State.reset ∧ LineLaw State.reset ∧ RangeLaw State.reset ∧
    WorkRangeLaw State.reset ∧ PortLaw State.reset

/-- No tally ever exceeds 256 x 10^12, and every field of a recipe slot, every factor, capstan and pulse field of a
position, and every geometry field stays in its range, at every step. -/
def Obligations.StepKeepsTalliesAndRanges : Prop :=
  ∀ s t : State, step s = .next t → (TallyLaw s → TallyLaw t) ∧ (RangeLaw s → RangeLaw t)

/-- The two views of the map agree and every lane in use is on a position in service (the law of R8), at every step. -/
def Obligations.StepKeepsTheMap : Prop :=
  ∀ s t : State, MapLaw s → step s = .next t → MapLaw t

/-- The store holds at most 96 marks, and each list its own lane's marks in order of position, none behind coil_start
(the law of R80), at every step. -/
def Obligations.StepKeepsTheMarkStore : Prop :=
  ∀ s t : State, MarkLaw s → step s = .next t → MarkLaw t

/-- Packages and REQUESTED entries never exceed 8 together (the law of R143), and the package numbers run consecutively
(the law of R152), at every step. -/
def Obligations.StepKeepsPlacesAndNumbers : Prop :=
  ∀ s t : State, step s = .next t → (PlacesLaw s → PlacesLaw t) ∧ (NumberLaw s → NumberLaw t)

/-- While a lane is in RUN, SPLICING or FAULT its trim lies within the limits of its active slot (the law of R69), at
every step. -/
def Obligations.StepKeepsTheTrim : Prop :=
  ∀ s t : State, TrimLaw s → step s = .next t → TrimLaw t

/-- The cut list holds one kind, at most one COIL entry of a lane and one PANEL entry (the law of R141), and the row
list at most four rows in increasing numbers (the law of R124), at every step. -/
def Obligations.StepKeepsTheCutListAndTheRowList : Prop :=
  ∀ s t : State, LineLaw s → step s = .next t → LineLaw t

/-- No port is left holding a byte, a byte being assembled never has more than seven bits (R160, R163), and a byte
within which a response was stopped is kept within that byte only (R172), at every step. R163 lets a port hold a
byte while its step waits: that none is left holding one, because a byte forces the service of the step, is the
model's choice (assumption log 3); the byte kept after a stopped response is its reading of R172 (assumption log
23). -/
def Obligations.StepKeepsThePortsClear : Prop :=
  ∀ s t : State, PortLaw s → step s = .next t → PortLaw t

/-- What a lane's twist state, runs and counters hold, and what a calibration record holds, stays in its range (R2, R42, R54,
R62, R64, R122), at every step from a state whose recipe, position and geometry fields are in range: a lane in RUN
always has a window of its period left, and a running pass an edge. -/
def Obligations.StepKeepsLaneAndCalibrationRanges : Prop :=
  ∀ s t : State, RangeLaw s → WorkRangeLaw s → step s = .next t → WorkRangeLaw t

end Statements
end

