-- ==== Sys2Proof/Laws/State.lean ====
section
/-! SUPPORT. The small lemmas of the record updates: what each leaves, field by field, and what it writes. -/

namespace Sys2Proof.Machine

variable (s : State)

/-! ### setLane -/

@[simp] theorem State.setLane_positions (l : LaneNo) (x : Lane) : (s.setLane l x).positions = s.positions := rfl
@[simp] theorem State.setLane_cals (l : LaneNo) (x : Lane) : (s.setLane l x).cals = s.cals := rfl
@[simp] theorem State.setLane_recipes (l : LaneNo) (x : Lane) : (s.setLane l x).recipes = s.recipes := rfl
@[simp] theorem State.setLane_marks (l : LaneNo) (x : Lane) : (s.setLane l x).marks = s.marks := rfl
@[simp] theorem State.setLane_line (l : LaneNo) (x : Lane) : (s.setLane l x).line = s.line := rfl
@[simp] theorem State.setLane_panel (l : LaneNo) (x : Lane) : (s.setLane l x).panel = s.panel := rfl
@[simp] theorem State.setLane_rows (l : LaneNo) (x : Lane) : (s.setLane l x).rows = s.rows := rfl
@[simp] theorem State.setLane_cuts (l : LaneNo) (x : Lane) : (s.setLane l x).cuts = s.cuts := rfl
@[simp] theorem State.setLane_stops (l : LaneNo) (x : Lane) : (s.setLane l x).stops = s.stops := rfl
@[simp] theorem State.setLane_forcing (l : LaneNo) (x : Lane) : (s.setLane l x).forcing = s.forcing := rfl
@[simp] theorem State.setLane_ports (l : LaneNo) (x : Lane) : (s.setLane l x).ports = s.ports := rfl
@[simp] theorem State.setLane_turn (l : LaneNo) (x : Lane) : (s.setLane l x).turn = s.turn := rfl
@[simp] theorem State.setLane_inputs (l : LaneNo) (x : Lane) : (s.setLane l x).inputs = s.inputs := rfl
@[simp] theorem State.setLane_freeTick (l : LaneNo) (x : Lane) : (s.setLane l x).freeTick = s.freeTick := rfl
@[simp] theorem State.setLane_pending (l : LaneNo) (x : Lane) : (s.setLane l x).pending = s.pending := rfl
@[simp] theorem State.setLane_position (l : LaneNo) (x : Lane) (j : PosNo) : (s.setLane l x).position j = s.position j := rfl
@[simp] theorem State.setLane_cal (l : LaneNo) (x : Lane) (j : PosNo) : (s.setLane l x).cal j = s.cal j := rfl
@[simp] theorem State.setLane_recipe (l : LaneNo) (x : Lane) (j : SlotNo) : (s.setLane l x).recipe j = s.recipe j := rfl
@[simp] theorem State.setLane_port (l : LaneNo) (x : Lane) (q : PortNo) : (s.setLane l x).port q = s.port q := rfl
@[simp] theorem State.setLane_markList (l : LaneNo) (x : Lane) (m : LaneNo) : (s.setLane l x).markList m = s.markList m := rfl

/-! ### modLane -/

@[simp] theorem State.modLane_positions (l : LaneNo) (f : Lane → Lane) : (s.modLane l f).positions = s.positions := rfl
@[simp] theorem State.modLane_cals (l : LaneNo) (f : Lane → Lane) : (s.modLane l f).cals = s.cals := rfl
@[simp] theorem State.modLane_recipes (l : LaneNo) (f : Lane → Lane) : (s.modLane l f).recipes = s.recipes := rfl
@[simp] theorem State.modLane_marks (l : LaneNo) (f : Lane → Lane) : (s.modLane l f).marks = s.marks := rfl
@[simp] theorem State.modLane_line (l : LaneNo) (f : Lane → Lane) : (s.modLane l f).line = s.line := rfl
@[simp] theorem State.modLane_panel (l : LaneNo) (f : Lane → Lane) : (s.modLane l f).panel = s.panel := rfl
@[simp] theorem State.modLane_rows (l : LaneNo) (f : Lane → Lane) : (s.modLane l f).rows = s.rows := rfl
@[simp] theorem State.modLane_cuts (l : LaneNo) (f : Lane → Lane) : (s.modLane l f).cuts = s.cuts := rfl
@[simp] theorem State.modLane_stops (l : LaneNo) (f : Lane → Lane) : (s.modLane l f).stops = s.stops := rfl
@[simp] theorem State.modLane_forcing (l : LaneNo) (f : Lane → Lane) : (s.modLane l f).forcing = s.forcing := rfl
@[simp] theorem State.modLane_ports (l : LaneNo) (f : Lane → Lane) : (s.modLane l f).ports = s.ports := rfl
@[simp] theorem State.modLane_turn (l : LaneNo) (f : Lane → Lane) : (s.modLane l f).turn = s.turn := rfl
@[simp] theorem State.modLane_inputs (l : LaneNo) (f : Lane → Lane) : (s.modLane l f).inputs = s.inputs := rfl
@[simp] theorem State.modLane_freeTick (l : LaneNo) (f : Lane → Lane) : (s.modLane l f).freeTick = s.freeTick := rfl
@[simp] theorem State.modLane_pending (l : LaneNo) (f : Lane → Lane) : (s.modLane l f).pending = s.pending := rfl
@[simp] theorem State.modLane_position (l : LaneNo) (f : Lane → Lane) (j : PosNo) : (s.modLane l f).position j = s.position j := rfl
@[simp] theorem State.modLane_cal (l : LaneNo) (f : Lane → Lane) (j : PosNo) : (s.modLane l f).cal j = s.cal j := rfl
@[simp] theorem State.modLane_recipe (l : LaneNo) (f : Lane → Lane) (j : SlotNo) : (s.modLane l f).recipe j = s.recipe j := rfl
@[simp] theorem State.modLane_port (l : LaneNo) (f : Lane → Lane) (q : PortNo) : (s.modLane l f).port q = s.port q := rfl
@[simp] theorem State.modLane_markList (l : LaneNo) (f : Lane → Lane) (m : LaneNo) : (s.modLane l f).markList m = s.markList m := rfl

/-! ### mapLanes -/

@[simp] theorem State.mapLanes_positions (f : Lane → Lane) : (s.mapLanes f).positions = s.positions := rfl
@[simp] theorem State.mapLanes_cals (f : Lane → Lane) : (s.mapLanes f).cals = s.cals := rfl
@[simp] theorem State.mapLanes_recipes (f : Lane → Lane) : (s.mapLanes f).recipes = s.recipes := rfl
@[simp] theorem State.mapLanes_marks (f : Lane → Lane) : (s.mapLanes f).marks = s.marks := rfl
@[simp] theorem State.mapLanes_line (f : Lane → Lane) : (s.mapLanes f).line = s.line := rfl
@[simp] theorem State.mapLanes_panel (f : Lane → Lane) : (s.mapLanes f).panel = s.panel := rfl
@[simp] theorem State.mapLanes_rows (f : Lane → Lane) : (s.mapLanes f).rows = s.rows := rfl
@[simp] theorem State.mapLanes_cuts (f : Lane → Lane) : (s.mapLanes f).cuts = s.cuts := rfl
@[simp] theorem State.mapLanes_stops (f : Lane → Lane) : (s.mapLanes f).stops = s.stops := rfl
@[simp] theorem State.mapLanes_forcing (f : Lane → Lane) : (s.mapLanes f).forcing = s.forcing := rfl
@[simp] theorem State.mapLanes_ports (f : Lane → Lane) : (s.mapLanes f).ports = s.ports := rfl
@[simp] theorem State.mapLanes_turn (f : Lane → Lane) : (s.mapLanes f).turn = s.turn := rfl
@[simp] theorem State.mapLanes_inputs (f : Lane → Lane) : (s.mapLanes f).inputs = s.inputs := rfl
@[simp] theorem State.mapLanes_freeTick (f : Lane → Lane) : (s.mapLanes f).freeTick = s.freeTick := rfl
@[simp] theorem State.mapLanes_pending (f : Lane → Lane) : (s.mapLanes f).pending = s.pending := rfl
@[simp] theorem State.mapLanes_position (f : Lane → Lane) (j : PosNo) : (s.mapLanes f).position j = s.position j := rfl
@[simp] theorem State.mapLanes_cal (f : Lane → Lane) (j : PosNo) : (s.mapLanes f).cal j = s.cal j := rfl
@[simp] theorem State.mapLanes_recipe (f : Lane → Lane) (j : SlotNo) : (s.mapLanes f).recipe j = s.recipe j := rfl
@[simp] theorem State.mapLanes_port (f : Lane → Lane) (q : PortNo) : (s.mapLanes f).port q = s.port q := rfl
@[simp] theorem State.mapLanes_markList (f : Lane → Lane) (m : LaneNo) : (s.mapLanes f).markList m = s.markList m := rfl

/-! ### modPosition -/

@[simp] theorem State.modPosition_lanes (k : PosNo) (f : Position → Position) : (s.modPosition k f).lanes = s.lanes := rfl
@[simp] theorem State.modPosition_cals (k : PosNo) (f : Position → Position) : (s.modPosition k f).cals = s.cals := rfl
@[simp] theorem State.modPosition_recipes (k : PosNo) (f : Position → Position) : (s.modPosition k f).recipes = s.recipes := rfl
@[simp] theorem State.modPosition_marks (k : PosNo) (f : Position → Position) : (s.modPosition k f).marks = s.marks := rfl
@[simp] theorem State.modPosition_line (k : PosNo) (f : Position → Position) : (s.modPosition k f).line = s.line := rfl
@[simp] theorem State.modPosition_panel (k : PosNo) (f : Position → Position) : (s.modPosition k f).panel = s.panel := rfl
@[simp] theorem State.modPosition_rows (k : PosNo) (f : Position → Position) : (s.modPosition k f).rows = s.rows := rfl
@[simp] theorem State.modPosition_cuts (k : PosNo) (f : Position → Position) : (s.modPosition k f).cuts = s.cuts := rfl
@[simp] theorem State.modPosition_stops (k : PosNo) (f : Position → Position) : (s.modPosition k f).stops = s.stops := rfl
@[simp] theorem State.modPosition_forcing (k : PosNo) (f : Position → Position) : (s.modPosition k f).forcing = s.forcing := rfl
@[simp] theorem State.modPosition_ports (k : PosNo) (f : Position → Position) : (s.modPosition k f).ports = s.ports := rfl
@[simp] theorem State.modPosition_turn (k : PosNo) (f : Position → Position) : (s.modPosition k f).turn = s.turn := rfl
@[simp] theorem State.modPosition_inputs (k : PosNo) (f : Position → Position) : (s.modPosition k f).inputs = s.inputs := rfl
@[simp] theorem State.modPosition_freeTick (k : PosNo) (f : Position → Position) : (s.modPosition k f).freeTick = s.freeTick := rfl
@[simp] theorem State.modPosition_pending (k : PosNo) (f : Position → Position) : (s.modPosition k f).pending = s.pending := rfl
@[simp] theorem State.modPosition_lane (k : PosNo) (f : Position → Position) (m : LaneNo) : (s.modPosition k f).lane m = s.lane m := rfl
@[simp] theorem State.modPosition_cal (k : PosNo) (f : Position → Position) (j : PosNo) : (s.modPosition k f).cal j = s.cal j := rfl
@[simp] theorem State.modPosition_recipe (k : PosNo) (f : Position → Position) (j : SlotNo) : (s.modPosition k f).recipe j = s.recipe j := rfl
@[simp] theorem State.modPosition_port (k : PosNo) (f : Position → Position) (q : PortNo) : (s.modPosition k f).port q = s.port q := rfl
@[simp] theorem State.modPosition_markList (k : PosNo) (f : Position → Position) (m : LaneNo) : (s.modPosition k f).markList m = s.markList m := rfl

/-! ### modCal -/

@[simp] theorem State.modCal_lanes (k : PosNo) (f : CalRecord → CalRecord) : (s.modCal k f).lanes = s.lanes := rfl
@[simp] theorem State.modCal_positions (k : PosNo) (f : CalRecord → CalRecord) : (s.modCal k f).positions = s.positions := rfl
@[simp] theorem State.modCal_recipes (k : PosNo) (f : CalRecord → CalRecord) : (s.modCal k f).recipes = s.recipes := rfl
@[simp] theorem State.modCal_marks (k : PosNo) (f : CalRecord → CalRecord) : (s.modCal k f).marks = s.marks := rfl
@[simp] theorem State.modCal_line (k : PosNo) (f : CalRecord → CalRecord) : (s.modCal k f).line = s.line := rfl
@[simp] theorem State.modCal_panel (k : PosNo) (f : CalRecord → CalRecord) : (s.modCal k f).panel = s.panel := rfl
@[simp] theorem State.modCal_rows (k : PosNo) (f : CalRecord → CalRecord) : (s.modCal k f).rows = s.rows := rfl
@[simp] theorem State.modCal_cuts (k : PosNo) (f : CalRecord → CalRecord) : (s.modCal k f).cuts = s.cuts := rfl
@[simp] theorem State.modCal_stops (k : PosNo) (f : CalRecord → CalRecord) : (s.modCal k f).stops = s.stops := rfl
@[simp] theorem State.modCal_forcing (k : PosNo) (f : CalRecord → CalRecord) : (s.modCal k f).forcing = s.forcing := rfl
@[simp] theorem State.modCal_ports (k : PosNo) (f : CalRecord → CalRecord) : (s.modCal k f).ports = s.ports := rfl
@[simp] theorem State.modCal_turn (k : PosNo) (f : CalRecord → CalRecord) : (s.modCal k f).turn = s.turn := rfl
@[simp] theorem State.modCal_inputs (k : PosNo) (f : CalRecord → CalRecord) : (s.modCal k f).inputs = s.inputs := rfl
@[simp] theorem State.modCal_freeTick (k : PosNo) (f : CalRecord → CalRecord) : (s.modCal k f).freeTick = s.freeTick := rfl
@[simp] theorem State.modCal_pending (k : PosNo) (f : CalRecord → CalRecord) : (s.modCal k f).pending = s.pending := rfl
@[simp] theorem State.modCal_lane (k : PosNo) (f : CalRecord → CalRecord) (m : LaneNo) : (s.modCal k f).lane m = s.lane m := rfl
@[simp] theorem State.modCal_position (k : PosNo) (f : CalRecord → CalRecord) (j : PosNo) : (s.modCal k f).position j = s.position j := rfl
@[simp] theorem State.modCal_recipe (k : PosNo) (f : CalRecord → CalRecord) (j : SlotNo) : (s.modCal k f).recipe j = s.recipe j := rfl
@[simp] theorem State.modCal_port (k : PosNo) (f : CalRecord → CalRecord) (q : PortNo) : (s.modCal k f).port q = s.port q := rfl
@[simp] theorem State.modCal_markList (k : PosNo) (f : CalRecord → CalRecord) (m : LaneNo) : (s.modCal k f).markList m = s.markList m := rfl

/-! ### setRecipe -/

@[simp] theorem State.setRecipe_lanes (i : SlotNo) (r : Recipe) : (s.setRecipe i r).lanes = s.lanes := rfl
@[simp] theorem State.setRecipe_positions (i : SlotNo) (r : Recipe) : (s.setRecipe i r).positions = s.positions := rfl
@[simp] theorem State.setRecipe_cals (i : SlotNo) (r : Recipe) : (s.setRecipe i r).cals = s.cals := rfl
@[simp] theorem State.setRecipe_marks (i : SlotNo) (r : Recipe) : (s.setRecipe i r).marks = s.marks := rfl
@[simp] theorem State.setRecipe_line (i : SlotNo) (r : Recipe) : (s.setRecipe i r).line = s.line := rfl
@[simp] theorem State.setRecipe_panel (i : SlotNo) (r : Recipe) : (s.setRecipe i r).panel = s.panel := rfl
@[simp] theorem State.setRecipe_rows (i : SlotNo) (r : Recipe) : (s.setRecipe i r).rows = s.rows := rfl
@[simp] theorem State.setRecipe_cuts (i : SlotNo) (r : Recipe) : (s.setRecipe i r).cuts = s.cuts := rfl
@[simp] theorem State.setRecipe_stops (i : SlotNo) (r : Recipe) : (s.setRecipe i r).stops = s.stops := rfl
@[simp] theorem State.setRecipe_forcing (i : SlotNo) (r : Recipe) : (s.setRecipe i r).forcing = s.forcing := rfl
@[simp] theorem State.setRecipe_ports (i : SlotNo) (r : Recipe) : (s.setRecipe i r).ports = s.ports := rfl
@[simp] theorem State.setRecipe_turn (i : SlotNo) (r : Recipe) : (s.setRecipe i r).turn = s.turn := rfl
@[simp] theorem State.setRecipe_inputs (i : SlotNo) (r : Recipe) : (s.setRecipe i r).inputs = s.inputs := rfl
@[simp] theorem State.setRecipe_freeTick (i : SlotNo) (r : Recipe) : (s.setRecipe i r).freeTick = s.freeTick := rfl
@[simp] theorem State.setRecipe_pending (i : SlotNo) (r : Recipe) : (s.setRecipe i r).pending = s.pending := rfl
@[simp] theorem State.setRecipe_lane (i : SlotNo) (r : Recipe) (m : LaneNo) : (s.setRecipe i r).lane m = s.lane m := rfl
@[simp] theorem State.setRecipe_position (i : SlotNo) (r : Recipe) (j : PosNo) : (s.setRecipe i r).position j = s.position j := rfl
@[simp] theorem State.setRecipe_cal (i : SlotNo) (r : Recipe) (j : PosNo) : (s.setRecipe i r).cal j = s.cal j := rfl
@[simp] theorem State.setRecipe_port (i : SlotNo) (r : Recipe) (q : PortNo) : (s.setRecipe i r).port q = s.port q := rfl
@[simp] theorem State.setRecipe_markList (i : SlotNo) (r : Recipe) (m : LaneNo) : (s.setRecipe i r).markList m = s.markList m := rfl

/-! ### setMarkList -/

@[simp] theorem State.setMarkList_lanes (l : LaneNo) (ms : List Mark) : (s.setMarkList l ms).lanes = s.lanes := rfl
@[simp] theorem State.setMarkList_positions (l : LaneNo) (ms : List Mark) : (s.setMarkList l ms).positions = s.positions := rfl
@[simp] theorem State.setMarkList_cals (l : LaneNo) (ms : List Mark) : (s.setMarkList l ms).cals = s.cals := rfl
@[simp] theorem State.setMarkList_recipes (l : LaneNo) (ms : List Mark) : (s.setMarkList l ms).recipes = s.recipes := rfl
@[simp] theorem State.setMarkList_line (l : LaneNo) (ms : List Mark) : (s.setMarkList l ms).line = s.line := rfl
@[simp] theorem State.setMarkList_panel (l : LaneNo) (ms : List Mark) : (s.setMarkList l ms).panel = s.panel := rfl
@[simp] theorem State.setMarkList_rows (l : LaneNo) (ms : List Mark) : (s.setMarkList l ms).rows = s.rows := rfl
@[simp] theorem State.setMarkList_cuts (l : LaneNo) (ms : List Mark) : (s.setMarkList l ms).cuts = s.cuts := rfl
@[simp] theorem State.setMarkList_stops (l : LaneNo) (ms : List Mark) : (s.setMarkList l ms).stops = s.stops := rfl
@[simp] theorem State.setMarkList_forcing (l : LaneNo) (ms : List Mark) : (s.setMarkList l ms).forcing = s.forcing := rfl
@[simp] theorem State.setMarkList_ports (l : LaneNo) (ms : List Mark) : (s.setMarkList l ms).ports = s.ports := rfl
@[simp] theorem State.setMarkList_turn (l : LaneNo) (ms : List Mark) : (s.setMarkList l ms).turn = s.turn := rfl
@[simp] theorem State.setMarkList_inputs (l : LaneNo) (ms : List Mark) : (s.setMarkList l ms).inputs = s.inputs := rfl
@[simp] theorem State.setMarkList_freeTick (l : LaneNo) (ms : List Mark) : (s.setMarkList l ms).freeTick = s.freeTick := rfl
@[simp] theorem State.setMarkList_pending (l : LaneNo) (ms : List Mark) : (s.setMarkList l ms).pending = s.pending := rfl
@[simp] theorem State.setMarkList_lane (l : LaneNo) (ms : List Mark) (m : LaneNo) : (s.setMarkList l ms).lane m = s.lane m := rfl
@[simp] theorem State.setMarkList_position (l : LaneNo) (ms : List Mark) (j : PosNo) : (s.setMarkList l ms).position j = s.position j := rfl
@[simp] theorem State.setMarkList_cal (l : LaneNo) (ms : List Mark) (j : PosNo) : (s.setMarkList l ms).cal j = s.cal j := rfl
@[simp] theorem State.setMarkList_recipe (l : LaneNo) (ms : List Mark) (j : SlotNo) : (s.setMarkList l ms).recipe j = s.recipe j := rfl
@[simp] theorem State.setMarkList_port (l : LaneNo) (ms : List Mark) (q : PortNo) : (s.setMarkList l ms).port q = s.port q := rfl

/-! ### modPort -/

@[simp] theorem State.modPort_lanes (p : PortNo) (f : Port → Port) : (s.modPort p f).lanes = s.lanes := rfl
@[simp] theorem State.modPort_positions (p : PortNo) (f : Port → Port) : (s.modPort p f).positions = s.positions := rfl
@[simp] theorem State.modPort_cals (p : PortNo) (f : Port → Port) : (s.modPort p f).cals = s.cals := rfl
@[simp] theorem State.modPort_recipes (p : PortNo) (f : Port → Port) : (s.modPort p f).recipes = s.recipes := rfl
@[simp] theorem State.modPort_marks (p : PortNo) (f : Port → Port) : (s.modPort p f).marks = s.marks := rfl
@[simp] theorem State.modPort_line (p : PortNo) (f : Port → Port) : (s.modPort p f).line = s.line := rfl
@[simp] theorem State.modPort_panel (p : PortNo) (f : Port → Port) : (s.modPort p f).panel = s.panel := rfl
@[simp] theorem State.modPort_rows (p : PortNo) (f : Port → Port) : (s.modPort p f).rows = s.rows := rfl
@[simp] theorem State.modPort_cuts (p : PortNo) (f : Port → Port) : (s.modPort p f).cuts = s.cuts := rfl
@[simp] theorem State.modPort_stops (p : PortNo) (f : Port → Port) : (s.modPort p f).stops = s.stops := rfl
@[simp] theorem State.modPort_forcing (p : PortNo) (f : Port → Port) : (s.modPort p f).forcing = s.forcing := rfl
@[simp] theorem State.modPort_turn (p : PortNo) (f : Port → Port) : (s.modPort p f).turn = s.turn := rfl
@[simp] theorem State.modPort_inputs (p : PortNo) (f : Port → Port) : (s.modPort p f).inputs = s.inputs := rfl
@[simp] theorem State.modPort_freeTick (p : PortNo) (f : Port → Port) : (s.modPort p f).freeTick = s.freeTick := rfl
@[simp] theorem State.modPort_pending (p : PortNo) (f : Port → Port) : (s.modPort p f).pending = s.pending := rfl
@[simp] theorem State.modPort_lane (p : PortNo) (f : Port → Port) (m : LaneNo) : (s.modPort p f).lane m = s.lane m := rfl
@[simp] theorem State.modPort_position (p : PortNo) (f : Port → Port) (j : PosNo) : (s.modPort p f).position j = s.position j := rfl
@[simp] theorem State.modPort_cal (p : PortNo) (f : Port → Port) (j : PosNo) : (s.modPort p f).cal j = s.cal j := rfl
@[simp] theorem State.modPort_recipe (p : PortNo) (f : Port → Port) (j : SlotNo) : (s.modPort p f).recipe j = s.recipe j := rfl
@[simp] theorem State.modPort_markList (p : PortNo) (f : Port → Port) (m : LaneNo) : (s.modPort p f).markList m = s.markList m := rfl

/-! ### mapPorts -/

@[simp] theorem State.mapPorts_lanes (f : Port → Port) : (s.mapPorts f).lanes = s.lanes := rfl
@[simp] theorem State.mapPorts_positions (f : Port → Port) : (s.mapPorts f).positions = s.positions := rfl
@[simp] theorem State.mapPorts_cals (f : Port → Port) : (s.mapPorts f).cals = s.cals := rfl
@[simp] theorem State.mapPorts_recipes (f : Port → Port) : (s.mapPorts f).recipes = s.recipes := rfl
@[simp] theorem State.mapPorts_marks (f : Port → Port) : (s.mapPorts f).marks = s.marks := rfl
@[simp] theorem State.mapPorts_line (f : Port → Port) : (s.mapPorts f).line = s.line := rfl
@[simp] theorem State.mapPorts_panel (f : Port → Port) : (s.mapPorts f).panel = s.panel := rfl
@[simp] theorem State.mapPorts_rows (f : Port → Port) : (s.mapPorts f).rows = s.rows := rfl
@[simp] theorem State.mapPorts_cuts (f : Port → Port) : (s.mapPorts f).cuts = s.cuts := rfl
@[simp] theorem State.mapPorts_stops (f : Port → Port) : (s.mapPorts f).stops = s.stops := rfl
@[simp] theorem State.mapPorts_forcing (f : Port → Port) : (s.mapPorts f).forcing = s.forcing := rfl
@[simp] theorem State.mapPorts_turn (f : Port → Port) : (s.mapPorts f).turn = s.turn := rfl
@[simp] theorem State.mapPorts_inputs (f : Port → Port) : (s.mapPorts f).inputs = s.inputs := rfl
@[simp] theorem State.mapPorts_freeTick (f : Port → Port) : (s.mapPorts f).freeTick = s.freeTick := rfl
@[simp] theorem State.mapPorts_pending (f : Port → Port) : (s.mapPorts f).pending = s.pending := rfl
@[simp] theorem State.mapPorts_lane (f : Port → Port) (m : LaneNo) : (s.mapPorts f).lane m = s.lane m := rfl
@[simp] theorem State.mapPorts_position (f : Port → Port) (j : PosNo) : (s.mapPorts f).position j = s.position j := rfl
@[simp] theorem State.mapPorts_cal (f : Port → Port) (j : PosNo) : (s.mapPorts f).cal j = s.cal j := rfl
@[simp] theorem State.mapPorts_recipe (f : Port → Port) (j : SlotNo) : (s.mapPorts f).recipe j = s.recipe j := rfl
@[simp] theorem State.mapPorts_markList (f : Port → Port) (m : LaneNo) : (s.mapPorts f).markList m = s.markList m := rfl

/-! ### raise -/

@[simp] theorem State.raise_lanes (k : NoticeKind) (ls : LaneSet) : (State.raise k ls s).lanes = s.lanes := rfl
@[simp] theorem State.raise_positions (k : NoticeKind) (ls : LaneSet) : (State.raise k ls s).positions = s.positions := rfl
@[simp] theorem State.raise_cals (k : NoticeKind) (ls : LaneSet) : (State.raise k ls s).cals = s.cals := rfl
@[simp] theorem State.raise_recipes (k : NoticeKind) (ls : LaneSet) : (State.raise k ls s).recipes = s.recipes := rfl
@[simp] theorem State.raise_marks (k : NoticeKind) (ls : LaneSet) : (State.raise k ls s).marks = s.marks := rfl
@[simp] theorem State.raise_line (k : NoticeKind) (ls : LaneSet) : (State.raise k ls s).line = s.line := rfl
@[simp] theorem State.raise_panel (k : NoticeKind) (ls : LaneSet) : (State.raise k ls s).panel = s.panel := rfl
@[simp] theorem State.raise_rows (k : NoticeKind) (ls : LaneSet) : (State.raise k ls s).rows = s.rows := rfl
@[simp] theorem State.raise_cuts (k : NoticeKind) (ls : LaneSet) : (State.raise k ls s).cuts = s.cuts := rfl
@[simp] theorem State.raise_stops (k : NoticeKind) (ls : LaneSet) : (State.raise k ls s).stops = s.stops := rfl
@[simp] theorem State.raise_forcing (k : NoticeKind) (ls : LaneSet) : (State.raise k ls s).forcing = s.forcing := rfl
@[simp] theorem State.raise_turn (k : NoticeKind) (ls : LaneSet) : (State.raise k ls s).turn = s.turn := rfl
@[simp] theorem State.raise_inputs (k : NoticeKind) (ls : LaneSet) : (State.raise k ls s).inputs = s.inputs := rfl
@[simp] theorem State.raise_freeTick (k : NoticeKind) (ls : LaneSet) : (State.raise k ls s).freeTick = s.freeTick := rfl
@[simp] theorem State.raise_pending (k : NoticeKind) (ls : LaneSet) : (State.raise k ls s).pending = s.pending := rfl
@[simp] theorem State.raise_lane (k : NoticeKind) (ls : LaneSet) (m : LaneNo) : (State.raise k ls s).lane m = s.lane m := rfl
@[simp] theorem State.raise_position (k : NoticeKind) (ls : LaneSet) (j : PosNo) : (State.raise k ls s).position j = s.position j := rfl
@[simp] theorem State.raise_cal (k : NoticeKind) (ls : LaneSet) (j : PosNo) : (State.raise k ls s).cal j = s.cal j := rfl
@[simp] theorem State.raise_recipe (k : NoticeKind) (ls : LaneSet) (j : SlotNo) : (State.raise k ls s).recipe j = s.recipe j := rfl
@[simp] theorem State.raise_markList (k : NoticeKind) (ls : LaneSet) (m : LaneNo) : (State.raise k ls s).markList m = s.markList m := rfl

/-! ### requestStop -/

@[simp] theorem State.requestStop_lanes (r : StopReason) (ls : LaneSet) : (State.requestStop r ls s).lanes = s.lanes := rfl
@[simp] theorem State.requestStop_positions (r : StopReason) (ls : LaneSet) : (State.requestStop r ls s).positions = s.positions := rfl
@[simp] theorem State.requestStop_cals (r : StopReason) (ls : LaneSet) : (State.requestStop r ls s).cals = s.cals := rfl
@[simp] theorem State.requestStop_recipes (r : StopReason) (ls : LaneSet) : (State.requestStop r ls s).recipes = s.recipes := rfl
@[simp] theorem State.requestStop_marks (r : StopReason) (ls : LaneSet) : (State.requestStop r ls s).marks = s.marks := rfl
@[simp] theorem State.requestStop_line (r : StopReason) (ls : LaneSet) : (State.requestStop r ls s).line = s.line := rfl
@[simp] theorem State.requestStop_panel (r : StopReason) (ls : LaneSet) : (State.requestStop r ls s).panel = s.panel := rfl
@[simp] theorem State.requestStop_rows (r : StopReason) (ls : LaneSet) : (State.requestStop r ls s).rows = s.rows := rfl
@[simp] theorem State.requestStop_cuts (r : StopReason) (ls : LaneSet) : (State.requestStop r ls s).cuts = s.cuts := rfl
@[simp] theorem State.requestStop_forcing (r : StopReason) (ls : LaneSet) : (State.requestStop r ls s).forcing = s.forcing := rfl
@[simp] theorem State.requestStop_turn (r : StopReason) (ls : LaneSet) : (State.requestStop r ls s).turn = s.turn := rfl
@[simp] theorem State.requestStop_inputs (r : StopReason) (ls : LaneSet) : (State.requestStop r ls s).inputs = s.inputs := rfl
@[simp] theorem State.requestStop_freeTick (r : StopReason) (ls : LaneSet) : (State.requestStop r ls s).freeTick = s.freeTick := rfl
@[simp] theorem State.requestStop_pending (r : StopReason) (ls : LaneSet) : (State.requestStop r ls s).pending = s.pending := rfl
@[simp] theorem State.requestStop_lane (r : StopReason) (ls : LaneSet) (m : LaneNo) : (State.requestStop r ls s).lane m = s.lane m := rfl
@[simp] theorem State.requestStop_position (r : StopReason) (ls : LaneSet) (j : PosNo) : (State.requestStop r ls s).position j = s.position j := rfl
@[simp] theorem State.requestStop_cal (r : StopReason) (ls : LaneSet) (j : PosNo) : (State.requestStop r ls s).cal j = s.cal j := rfl
@[simp] theorem State.requestStop_recipe (r : StopReason) (ls : LaneSet) (j : SlotNo) : (State.requestStop r ls s).recipe j = s.recipe j := rfl
@[simp] theorem State.requestStop_markList (r : StopReason) (ls : LaneSet) (m : LaneNo) : (State.requestStop r ls s).markList m = s.markList m := rfl

/-! ### modCuts -/

@[simp] theorem State.modCuts_lanes (f : CutUnit → CutUnit) : (s.modCuts f).lanes = s.lanes := rfl
@[simp] theorem State.modCuts_positions (f : CutUnit → CutUnit) : (s.modCuts f).positions = s.positions := rfl
@[simp] theorem State.modCuts_cals (f : CutUnit → CutUnit) : (s.modCuts f).cals = s.cals := rfl
@[simp] theorem State.modCuts_recipes (f : CutUnit → CutUnit) : (s.modCuts f).recipes = s.recipes := rfl
@[simp] theorem State.modCuts_marks (f : CutUnit → CutUnit) : (s.modCuts f).marks = s.marks := rfl
@[simp] theorem State.modCuts_line (f : CutUnit → CutUnit) : (s.modCuts f).line = s.line := rfl
@[simp] theorem State.modCuts_panel (f : CutUnit → CutUnit) : (s.modCuts f).panel = s.panel := rfl
@[simp] theorem State.modCuts_rows (f : CutUnit → CutUnit) : (s.modCuts f).rows = s.rows := rfl
@[simp] theorem State.modCuts_stops (f : CutUnit → CutUnit) : (s.modCuts f).stops = s.stops := rfl
@[simp] theorem State.modCuts_forcing (f : CutUnit → CutUnit) : (s.modCuts f).forcing = s.forcing := rfl
@[simp] theorem State.modCuts_ports (f : CutUnit → CutUnit) : (s.modCuts f).ports = s.ports := rfl
@[simp] theorem State.modCuts_turn (f : CutUnit → CutUnit) : (s.modCuts f).turn = s.turn := rfl
@[simp] theorem State.modCuts_inputs (f : CutUnit → CutUnit) : (s.modCuts f).inputs = s.inputs := rfl
@[simp] theorem State.modCuts_freeTick (f : CutUnit → CutUnit) : (s.modCuts f).freeTick = s.freeTick := rfl
@[simp] theorem State.modCuts_pending (f : CutUnit → CutUnit) : (s.modCuts f).pending = s.pending := rfl
@[simp] theorem State.modCuts_lane (f : CutUnit → CutUnit) (m : LaneNo) : (s.modCuts f).lane m = s.lane m := rfl
@[simp] theorem State.modCuts_position (f : CutUnit → CutUnit) (j : PosNo) : (s.modCuts f).position j = s.position j := rfl
@[simp] theorem State.modCuts_cal (f : CutUnit → CutUnit) (j : PosNo) : (s.modCuts f).cal j = s.cal j := rfl
@[simp] theorem State.modCuts_recipe (f : CutUnit → CutUnit) (j : SlotNo) : (s.modCuts f).recipe j = s.recipe j := rfl
@[simp] theorem State.modCuts_port (f : CutUnit → CutUnit) (q : PortNo) : (s.modCuts f).port q = s.port q := rfl
@[simp] theorem State.modCuts_markList (f : CutUnit → CutUnit) (m : LaneNo) : (s.modCuts f).markList m = s.markList m := rfl

/-! ### modPanel -/

@[simp] theorem State.modPanel_lanes (f : Panel → Panel) : (s.modPanel f).lanes = s.lanes := rfl
@[simp] theorem State.modPanel_positions (f : Panel → Panel) : (s.modPanel f).positions = s.positions := rfl
@[simp] theorem State.modPanel_cals (f : Panel → Panel) : (s.modPanel f).cals = s.cals := rfl
@[simp] theorem State.modPanel_recipes (f : Panel → Panel) : (s.modPanel f).recipes = s.recipes := rfl
@[simp] theorem State.modPanel_marks (f : Panel → Panel) : (s.modPanel f).marks = s.marks := rfl
@[simp] theorem State.modPanel_line (f : Panel → Panel) : (s.modPanel f).line = s.line := rfl
@[simp] theorem State.modPanel_rows (f : Panel → Panel) : (s.modPanel f).rows = s.rows := rfl
@[simp] theorem State.modPanel_cuts (f : Panel → Panel) : (s.modPanel f).cuts = s.cuts := rfl
@[simp] theorem State.modPanel_stops (f : Panel → Panel) : (s.modPanel f).stops = s.stops := rfl
@[simp] theorem State.modPanel_forcing (f : Panel → Panel) : (s.modPanel f).forcing = s.forcing := rfl
@[simp] theorem State.modPanel_ports (f : Panel → Panel) : (s.modPanel f).ports = s.ports := rfl
@[simp] theorem State.modPanel_turn (f : Panel → Panel) : (s.modPanel f).turn = s.turn := rfl
@[simp] theorem State.modPanel_inputs (f : Panel → Panel) : (s.modPanel f).inputs = s.inputs := rfl
@[simp] theorem State.modPanel_freeTick (f : Panel → Panel) : (s.modPanel f).freeTick = s.freeTick := rfl
@[simp] theorem State.modPanel_pending (f : Panel → Panel) : (s.modPanel f).pending = s.pending := rfl
@[simp] theorem State.modPanel_lane (f : Panel → Panel) (m : LaneNo) : (s.modPanel f).lane m = s.lane m := rfl
@[simp] theorem State.modPanel_position (f : Panel → Panel) (j : PosNo) : (s.modPanel f).position j = s.position j := rfl
@[simp] theorem State.modPanel_cal (f : Panel → Panel) (j : PosNo) : (s.modPanel f).cal j = s.cal j := rfl
@[simp] theorem State.modPanel_recipe (f : Panel → Panel) (j : SlotNo) : (s.modPanel f).recipe j = s.recipe j := rfl
@[simp] theorem State.modPanel_port (f : Panel → Panel) (q : PortNo) : (s.modPanel f).port q = s.port q := rfl
@[simp] theorem State.modPanel_markList (f : Panel → Panel) (m : LaneNo) : (s.modPanel f).markList m = s.markList m := rfl

/-! ### modWheel -/

@[simp] theorem State.modWheel_lanes (k : PosNo) (f : Pair → Pair) : (s.modWheel k f).lanes = s.lanes := rfl
@[simp] theorem State.modWheel_positions (k : PosNo) (f : Pair → Pair) : (s.modWheel k f).positions = s.positions := rfl
@[simp] theorem State.modWheel_cals (k : PosNo) (f : Pair → Pair) : (s.modWheel k f).cals = s.cals := rfl
@[simp] theorem State.modWheel_recipes (k : PosNo) (f : Pair → Pair) : (s.modWheel k f).recipes = s.recipes := rfl
@[simp] theorem State.modWheel_marks (k : PosNo) (f : Pair → Pair) : (s.modWheel k f).marks = s.marks := rfl
@[simp] theorem State.modWheel_line (k : PosNo) (f : Pair → Pair) : (s.modWheel k f).line = s.line := rfl
@[simp] theorem State.modWheel_panel (k : PosNo) (f : Pair → Pair) : (s.modWheel k f).panel = s.panel := rfl
@[simp] theorem State.modWheel_rows (k : PosNo) (f : Pair → Pair) : (s.modWheel k f).rows = s.rows := rfl
@[simp] theorem State.modWheel_cuts (k : PosNo) (f : Pair → Pair) : (s.modWheel k f).cuts = s.cuts := rfl
@[simp] theorem State.modWheel_stops (k : PosNo) (f : Pair → Pair) : (s.modWheel k f).stops = s.stops := rfl
@[simp] theorem State.modWheel_forcing (k : PosNo) (f : Pair → Pair) : (s.modWheel k f).forcing = s.forcing := rfl
@[simp] theorem State.modWheel_ports (k : PosNo) (f : Pair → Pair) : (s.modWheel k f).ports = s.ports := rfl
@[simp] theorem State.modWheel_turn (k : PosNo) (f : Pair → Pair) : (s.modWheel k f).turn = s.turn := rfl
@[simp] theorem State.modWheel_freeTick (k : PosNo) (f : Pair → Pair) : (s.modWheel k f).freeTick = s.freeTick := rfl
@[simp] theorem State.modWheel_pending (k : PosNo) (f : Pair → Pair) : (s.modWheel k f).pending = s.pending := rfl
@[simp] theorem State.modWheel_lane (k : PosNo) (f : Pair → Pair) (m : LaneNo) : (s.modWheel k f).lane m = s.lane m := rfl
@[simp] theorem State.modWheel_position (k : PosNo) (f : Pair → Pair) (j : PosNo) : (s.modWheel k f).position j = s.position j := rfl
@[simp] theorem State.modWheel_cal (k : PosNo) (f : Pair → Pair) (j : PosNo) : (s.modWheel k f).cal j = s.cal j := rfl
@[simp] theorem State.modWheel_recipe (k : PosNo) (f : Pair → Pair) (j : SlotNo) : (s.modWheel k f).recipe j = s.recipe j := rfl
@[simp] theorem State.modWheel_port (k : PosNo) (f : Pair → Pair) (q : PortNo) : (s.modWheel k f).port q = s.port q := rfl
@[simp] theorem State.modWheel_markList (k : PosNo) (f : Pair → Pair) (m : LaneNo) : (s.modWheel k f).markList m = s.markList m := rfl

/-! ### modDraw -/

@[simp] theorem State.modDraw_lanes (f : Pair → Pair) : (s.modDraw f).lanes = s.lanes := rfl
@[simp] theorem State.modDraw_positions (f : Pair → Pair) : (s.modDraw f).positions = s.positions := rfl
@[simp] theorem State.modDraw_cals (f : Pair → Pair) : (s.modDraw f).cals = s.cals := rfl
@[simp] theorem State.modDraw_recipes (f : Pair → Pair) : (s.modDraw f).recipes = s.recipes := rfl
@[simp] theorem State.modDraw_marks (f : Pair → Pair) : (s.modDraw f).marks = s.marks := rfl
@[simp] theorem State.modDraw_line (f : Pair → Pair) : (s.modDraw f).line = s.line := rfl
@[simp] theorem State.modDraw_panel (f : Pair → Pair) : (s.modDraw f).panel = s.panel := rfl
@[simp] theorem State.modDraw_rows (f : Pair → Pair) : (s.modDraw f).rows = s.rows := rfl
@[simp] theorem State.modDraw_cuts (f : Pair → Pair) : (s.modDraw f).cuts = s.cuts := rfl
@[simp] theorem State.modDraw_stops (f : Pair → Pair) : (s.modDraw f).stops = s.stops := rfl
@[simp] theorem State.modDraw_forcing (f : Pair → Pair) : (s.modDraw f).forcing = s.forcing := rfl
@[simp] theorem State.modDraw_ports (f : Pair → Pair) : (s.modDraw f).ports = s.ports := rfl
@[simp] theorem State.modDraw_turn (f : Pair → Pair) : (s.modDraw f).turn = s.turn := rfl
@[simp] theorem State.modDraw_freeTick (f : Pair → Pair) : (s.modDraw f).freeTick = s.freeTick := rfl
@[simp] theorem State.modDraw_pending (f : Pair → Pair) : (s.modDraw f).pending = s.pending := rfl
@[simp] theorem State.modDraw_lane (f : Pair → Pair) (m : LaneNo) : (s.modDraw f).lane m = s.lane m := rfl
@[simp] theorem State.modDraw_position (f : Pair → Pair) (j : PosNo) : (s.modDraw f).position j = s.position j := rfl
@[simp] theorem State.modDraw_cal (f : Pair → Pair) (j : PosNo) : (s.modDraw f).cal j = s.cal j := rfl
@[simp] theorem State.modDraw_recipe (f : Pair → Pair) (j : SlotNo) : (s.modDraw f).recipe j = s.recipe j := rfl
@[simp] theorem State.modDraw_port (f : Pair → Pair) (q : PortNo) : (s.modDraw f).port q = s.port q := rfl
@[simp] theorem State.modDraw_markList (f : Pair → Pair) (m : LaneNo) : (s.modDraw f).markList m = s.markList m := rfl

/-! ### useFree -/

@[simp] theorem State.useFree_lanes (n : Nat) : (s.useFree n).lanes = s.lanes := rfl
@[simp] theorem State.useFree_positions (n : Nat) : (s.useFree n).positions = s.positions := rfl
@[simp] theorem State.useFree_cals (n : Nat) : (s.useFree n).cals = s.cals := rfl
@[simp] theorem State.useFree_recipes (n : Nat) : (s.useFree n).recipes = s.recipes := rfl
@[simp] theorem State.useFree_marks (n : Nat) : (s.useFree n).marks = s.marks := rfl
@[simp] theorem State.useFree_line (n : Nat) : (s.useFree n).line = s.line := rfl
@[simp] theorem State.useFree_panel (n : Nat) : (s.useFree n).panel = s.panel := rfl
@[simp] theorem State.useFree_rows (n : Nat) : (s.useFree n).rows = s.rows := rfl
@[simp] theorem State.useFree_cuts (n : Nat) : (s.useFree n).cuts = s.cuts := rfl
@[simp] theorem State.useFree_stops (n : Nat) : (s.useFree n).stops = s.stops := rfl
@[simp] theorem State.useFree_forcing (n : Nat) : (s.useFree n).forcing = s.forcing := rfl
@[simp] theorem State.useFree_ports (n : Nat) : (s.useFree n).ports = s.ports := rfl
@[simp] theorem State.useFree_turn (n : Nat) : (s.useFree n).turn = s.turn := rfl
@[simp] theorem State.useFree_inputs (n : Nat) : (s.useFree n).inputs = s.inputs := rfl
@[simp] theorem State.useFree_pending (n : Nat) : (s.useFree n).pending = s.pending := rfl
@[simp] theorem State.useFree_lane (n : Nat) (m : LaneNo) : (s.useFree n).lane m = s.lane m := rfl
@[simp] theorem State.useFree_position (n : Nat) (j : PosNo) : (s.useFree n).position j = s.position j := rfl
@[simp] theorem State.useFree_cal (n : Nat) (j : PosNo) : (s.useFree n).cal j = s.cal j := rfl
@[simp] theorem State.useFree_recipe (n : Nat) (j : SlotNo) : (s.useFree n).recipe j = s.recipe j := rfl
@[simp] theorem State.useFree_port (n : Nat) (q : PortNo) : (s.useFree n).port q = s.port q := rfl
@[simp] theorem State.useFree_markList (n : Nat) (m : LaneNo) : (s.useFree n).markList m = s.markList m := rfl

/-! ### What an update writes -/

theorem State.setLane_lane (l m : LaneNo) (x : Lane) :
    (s.setLane l x).lane m = if m = l then x else s.lane m := by
  simp only [State.lane, State.setLane, Fin.getElem_fin, Vector.getElem_set, Fin.ext_iff, eq_comm]

@[simp] theorem State.setLane_lane_self (l : LaneNo) (x : Lane) : (s.setLane l x).lane l = x := by
  simp [State.setLane_lane]

theorem State.modLane_lane (l m : LaneNo) (f : Lane → Lane) :
    (s.modLane l f).lane m = if m = l then f (s.lane m) else s.lane m := by
  simp only [State.modLane, State.setLane_lane]
  split <;> simp_all

@[simp] theorem State.modLane_lane_self (l : LaneNo) (f : Lane → Lane) :
    (s.modLane l f).lane l = f (s.lane l) := by
  simp [State.modLane_lane]

@[simp] theorem State.mapLanes_lane (f : Lane → Lane) (l : LaneNo) : (s.mapLanes f).lane l = f (s.lane l) := by
  fin_cases l <;> rfl

theorem State.modPosition_position (k j : PosNo) (f : Position → Position) :
    (s.modPosition k f).position j = if j = k then f (s.position j) else s.position j := by
  simp only [State.position, State.modPosition, Fin.getElem_fin, Vector.getElem_set, Fin.ext_iff, eq_comm]
  split <;> simp_all

@[simp] theorem State.modPosition_position_self (k : PosNo) (f : Position → Position) :
    (s.modPosition k f).position k = f (s.position k) := by
  simp [State.modPosition_position]

theorem State.modCal_cal (k j : PosNo) (f : CalRecord → CalRecord) :
    (s.modCal k f).cal j = if j = k then f (s.cal j) else s.cal j := by
  simp only [State.cal, State.modCal, Fin.getElem_fin, Vector.getElem_set, Fin.ext_iff, eq_comm]
  split <;> simp_all

@[simp] theorem State.modCal_cal_self (k : PosNo) (f : CalRecord → CalRecord) :
    (s.modCal k f).cal k = f (s.cal k) := by
  simp [State.modCal_cal]

theorem State.setRecipe_recipe (i j : SlotNo) (r : Recipe) :
    (s.setRecipe i r).recipe j = if j = i then r else s.recipe j := by
  simp only [State.recipe, State.setRecipe, Fin.getElem_fin, Vector.getElem_set, Fin.ext_iff, eq_comm]

@[simp] theorem State.setRecipe_recipe_self (i : SlotNo) (r : Recipe) : (s.setRecipe i r).recipe i = r := by
  simp [State.setRecipe_recipe]

theorem State.modPort_port (p q : PortNo) (f : Port → Port) :
    (s.modPort p f).port q = if q = p then f (s.port q) else s.port q := by
  simp only [State.port, State.modPort, Fin.getElem_fin, Vector.getElem_set, Fin.ext_iff, eq_comm]
  split <;> simp_all

@[simp] theorem State.modPort_port_self (p : PortNo) (f : Port → Port) :
    (s.modPort p f).port p = f (s.port p) := by
  simp [State.modPort_port]

@[simp] theorem State.mapPorts_port (f : Port → Port) (p : PortNo) : (s.mapPorts f).port p = f (s.port p) := by
  fin_cases p <;> rfl

@[simp] theorem State.raise_port (k : NoticeKind) (ls : LaneSet) (p : PortNo) :
    (State.raise k ls s).port p = (s.port p).notify k ls := by
  simp [State.raise]

@[simp] theorem State.requestStop_port (r : StopReason) (ls : LaneSet) (p : PortNo) :
    (State.requestStop r ls s).port p = (s.port p).notify .stop ls := by
  simp only [State.requestStop, State.raise_port]; rfl

@[simp] theorem State.requestStop_stops (r : StopReason) (ls : LaneSet) :
    (State.requestStop r ls s).stops = s.stops.add r ls := rfl

theorem State.setMarkList_markList (l m : LaneNo) (ms : List Mark) :
    (s.setMarkList l ms).markList m = if m = l then ms else s.markList m := by
  simp only [State.markList, State.setMarkList, Fin.getElem_fin, Vector.getElem_set, Fin.ext_iff, eq_comm]

@[simp] theorem State.setMarkList_markList_self (l : LaneNo) (ms : List Mark) :
    (s.setMarkList l ms).markList l = ms := by
  simp [State.setMarkList_markList]

@[simp] theorem State.setMarkList_nextMade (l : LaneNo) (ms : List Mark) :
    (s.setMarkList l ms).marks.nextMade = s.marks.nextMade := rfl

@[simp] theorem State.modCuts_cuts (f : CutUnit → CutUnit) : (s.modCuts f).cuts = f s.cuts := rfl

@[simp] theorem State.modPanel_panel (f : Panel → Panel) : (s.modPanel f).panel = f s.panel := rfl

@[simp] theorem State.useFree_freeTick (n : Nat) : (s.useFree n).freeTick = s.freeTick + n := rfl

/-- A raising leaves every field of a port but its notice set. -/
@[simp] theorem Port.notify_phase (P : Port) (k : NoticeKind) (ls : LaneSet) : (P.notify k ls).phase = P.phase := rfl
@[simp] theorem Port.notify_isWaiting (P : Port) (k : NoticeKind) (ls : LaneSet) :
    (P.notify k ls).isWaiting = P.isWaiting := rfl
@[simp] theorem Port.notify_role (P : Port) (k : NoticeKind) (ls : LaneSet) : (P.notify k ls).role = P.role := rfl
@[simp] theorem Port.notify_held (P : Port) (k : NoticeKind) (ls : LaneSet) : (P.notify k ls).held = P.held := rfl
@[simp] theorem Port.notify_interest (P : Port) (k : NoticeKind) (ls : LaneSet) :
    (P.notify k ls).interest = P.interest := rfl

end Sys2Proof.Machine
end

