-- ==== Sys2Proof/Laws/Frames.lean ====
section
/-! SUPPORT. What the operations of the records leave: every port but for its notices, the turn, the decoders'
references, the forcing settings, the queue and the recipes. One lemma per operation. -/

namespace Sys2Proof.Machine

/-- A port without its notice set. -/
def Port.core (P : Port) : Port := { P with notices := NoticeSet.empty }

/-- What no operation of the lanes, tallies, marks, knots and cuts changes. -/
def State.fixed (s : State) : (PortNo → Port) × PortNo × Inputs × LineForcing × List Instr × Vector Recipe 4 :=
  (fun q => (s.port q).core, s.turn, s.inputs, s.forcing, s.pending, s.recipes)

@[simp] theorem Port.core_notify (P : Port) (k : NoticeKind) (ls : LaneSet) : (P.notify k ls).core = P.core := rfl

@[simp] theorem refuse_state (r : Result) (s : State) : (refuse r s).state = s := rfl
@[simp] theorem accept_state (s : State) : (accept s).state = s := rfl

/-- An operation on each lane of a list leaves what it leaves on each. -/
theorem forLanes_keeps {α : Type} (g : State → α) (f : LaneNo → State → State) (h : ∀ l s, g (f l s) = g s)
    (ls : List LaneNo) (s : State) : g (forLanes ls f s) = g s := by
  induction ls generalizing s with
  | nil => rfl
  | cons l ls ih => exact (ih (f l s)).trans (h l s)

/-- A fold of an operation leaves what the operation leaves. -/
theorem foldl_keeps {α β : Type} (g : State → α) (f : State → β → State) (h : ∀ s x, g (f s x) = g s)
    (xs : List β) (s : State) : g (xs.foldl f s) = g s := by
  induction xs generalizing s with
  | nil => rfl
  | cons x xs ih => exact (ih (f s x)).trans (h s x)

@[simp] theorem forLanes_modLane_fixed (ls : List LaneNo) (f : LaneNo → Lane → Lane) (s : State) :
    (forLanes ls (fun l t => t.modLane l (f l)) s).fixed = s.fixed :=
  forLanes_keeps State.fixed (fun l t => t.modLane l (f l)) (fun _ _ => rfl) ls s

/-- A service of a lane leaves what the lane's own service leaves. -/
theorem serveLane_fixed (bs : List Byte) (f : LaneNo → State → Served) (s : State)
    (h : ∀ l, (f l s).state.fixed = s.fixed) : (serveLane bs f s).state.fixed = s.fixed := by
  unfold serveLane
  split
  · rfl
  · exact h _

section Fixed

variable (s : State)

@[simp] theorem setLane_fixed (l : LaneNo) (x : Lane) : (s.setLane l x).fixed = s.fixed := rfl
@[simp] theorem modLane_fixed (l : LaneNo) (f : Lane → Lane) : (s.modLane l f).fixed = s.fixed := rfl
@[simp] theorem mapLanes_fixed (f : Lane → Lane) : (s.mapLanes f).fixed = s.fixed := rfl
@[simp] theorem modPosition_fixed (k : PosNo) (f : Position → Position) : (s.modPosition k f).fixed = s.fixed := rfl
@[simp] theorem modCal_fixed (k : PosNo) (f : CalRecord → CalRecord) : (s.modCal k f).fixed = s.fixed := rfl
@[simp] theorem setMarkList_fixed (l : LaneNo) (ms : List Mark) : (s.setMarkList l ms).fixed = s.fixed := rfl
@[simp] theorem modCuts_fixed (f : CutUnit → CutUnit) : (s.modCuts f).fixed = s.fixed := rfl
@[simp] theorem modPanel_fixed (f : Panel → Panel) : (s.modPanel f).fixed = s.fixed := rfl
@[simp] theorem useFree_fixed (n : Nat) : (s.useFree n).fixed = s.fixed := rfl
@[simp] theorem raise_fixed (k : NoticeKind) (ls : LaneSet) : (State.raise k ls s).fixed = s.fixed := by
  simp [State.fixed]
@[simp] theorem requestStop_fixed (r : StopReason) (ls : LaneSet) : (State.requestStop r ls s).fixed = s.fixed := by
  simp [State.fixed]
@[simp] theorem withMarks_fixed (x : MarkStore) : State.fixed { s with marks := x } = s.fixed := rfl
@[simp] theorem withLine_fixed (x : Line) : State.fixed { s with line := x } = s.fixed := rfl
@[simp] theorem withRows_fixed (x : List RowRecord) : State.fixed { s with rows := x } = s.fixed := rfl
@[simp] theorem withPanel_fixed (x : Panel) : State.fixed { s with panel := x } = s.fixed := rfl
@[simp] theorem withRowsPanel_fixed (x : List RowRecord) (y : Panel) :
    State.fixed { s with rows := x, panel := y } = s.fixed := rfl
@[simp] theorem withLinePanel_fixed (x : Line) (y : Panel) :
    State.fixed { s with line := x, panel := y } = s.fixed := rfl
@[simp] theorem withStops_fixed (x : StopUnit) : State.fixed { s with stops := x } = s.fixed := rfl

@[simp] theorem handMark_fixed (m : Mark) : (handMark m s).fixed = s.fixed := by
  simp only [handMark]
  (repeat' split) <;> simp

@[simp] theorem handMarks_fixed (ms : List Mark) : (handMarks ms s).fixed = s.fixed := by
  unfold handMarks
  split <;> rw [foldl_keeps State.fixed _ fun t m => handMark_fixed t m]
  simp

@[simp] theorem calCount_fixed (k : PosNo) (d : Int) : (calCount k d s).fixed = s.fixed := by
  simp only [calCount]
  (repeat' split) <;> simp

@[simp] theorem finishCal_fixed (k : PosNo) (r : CalResult) (cause : Option CalCause) : (finishCal k r cause s).fixed = s.fixed := by
  simp [finishCal]

@[simp] theorem abortCal_fixed (l : LaneNo) : (abortCal l s).fixed = s.fixed := by
  simp only [abortCal]
  (repeat' split) <;> simp

@[simp] theorem passAClose_fixed (k : PosNo) : (passAClose k s).fixed = s.fixed := by
  simp only [passAClose]
  (repeat' split) <;> simp

@[simp] theorem passACloseIfMet_fixed (k : PosNo) : (passACloseIfMet k s).fixed = s.fixed := by
  simp only [passACloseIfMet]
  (repeat' split) <;> simp

@[simp] theorem calPass_fixed (k : PosNo) (factor : Nat) : (calPass k factor s).fixed = s.fixed := by
  simp only [calPass]
  (repeat' split) <;> simp

@[simp] theorem passBClose_fixed (k : PosNo) : (passBClose k s).fixed = s.fixed := by
  simp only [passBClose]
  (repeat' split) <;> simp

@[simp] theorem passBCloseIfMet_fixed (k : PosNo) : (passBCloseIfMet k s).fixed = s.fixed := by
  simp only [passBCloseIfMet]
  (repeat' split) <;> simp

@[simp] theorem calRising_fixed (k : PosNo) : (calRising k s).fixed = s.fixed := by
  simp only [calRising]
  (repeat' split) <;> simp

@[simp] theorem calFalling_fixed (k : PosNo) : (calFalling k s).fixed = s.fixed := by
  simp only [calFalling]
  (repeat' split) <;> simp

@[simp] theorem requestIfLate_fixed (late : Bool) (w : CutWhat) : (requestIfLate late w s).fixed = s.fixed := by
  simp only [requestIfLate]
  (repeat' split) <;> simp

@[simp] theorem setLate_fixed (sel : CutWhat → Bool) : (setLate sel s).fixed = s.fixed := by
  simp [setLate]

@[simp] theorem retestLate_fixed (sel : CutWhat → Bool) : (retestLate sel s).fixed = s.fixed := by
  unfold retestLate
  rw [foldl_keeps State.fixed _ fun t d => by simp]
  simp

@[simp] theorem joinCut_fixed (w : CutWhat) (due : Nat) (late : Bool) : (joinCut w due late s).fixed = s.fixed := by
  simp only [joinCut]
  (repeat' split) <;> simp

@[simp] theorem cutFallsDue_fixed (w : CutWhat) (due : Nat) : (cutFallsDue w due s).fixed = s.fixed := by
  simp only [cutFallsDue]
  (repeat' split) <;> simp

@[simp] theorem leaveDeferredEnd_fixed (l : LaneNo) : (leaveDeferredEnd l s).fixed = s.fixed := rfl

@[simp] theorem joinDeferredCut_fixed (d : DeferredCut) : (joinDeferredCut d s).fixed = s.fixed := by
  simp only [joinDeferredCut]
  (repeat' split) <;> simp

@[simp] theorem joinDeferred_fixed : (joinDeferred s).fixed = s.fixed := by
  unfold joinDeferred
  rw [foldl_keeps State.fixed _ fun t d => joinDeferredCut_fixed t d]
  simp

@[simp] theorem promoteHeld_fixed : (promoteHeld s).fixed = s.fixed := by
  simp only [promoteHeld]
  (repeat' split) <;> simp

@[simp] theorem coilCutDue_fixed (l : LaneNo) : (coilCutDue l s).fixed = s.fixed := by
  simp [coilCutDue]

@[simp] theorem coilCutDueIfMet_fixed (l : LaneNo) : (coilCutDueIfMet l s).fixed = s.fixed := by
  simp only [coilCutDueIfMet]
  (repeat' split) <;> simp

@[simp] theorem freshPlan_fixed (l : LaneNo) : (freshPlan l s).fixed = s.fixed := by
  simp [freshPlan]

@[simp] theorem shortCoilTest_fixed (l : LaneNo) (pos : Nat) : (shortCoilTest l pos s).fixed = s.fixed := by
  simp only [shortCoilTest]
  (repeat' split) <;> simp

@[simp] theorem endCutConverts_fixed (l : LaneNo) : (endCutConverts l s).fixed = s.fixed := by
  simp only [endCutConverts]
  (repeat' split) <;> simp

@[simp] theorem endCutDue_fixed (l : LaneNo) : (endCutDue l s).fixed = s.fixed := by
  simp only [endCutDue]
  (repeat' split) <;> simp

@[simp] theorem cutLateIfMet_fixed (c : CutName) : (cutLateIfMet c s).fixed = s.fixed := by
  simp only [cutLateIfMet]
  rw [foldl_keeps State.fixed _ fun t d => by simp]
  simp

@[simp] theorem setLaneState_fixed (l : LaneNo) (st : LaneState) : (setLaneState l st s).fixed = s.fixed := by
  simp [setLaneState]

@[simp] theorem setStartTrim_fixed (l : LaneNo) : (setStartTrim l s).fixed = s.fixed := by
  simp only [setStartTrim]
  (repeat' split) <;> simp

@[simp] theorem switchLane_fixed (l : LaneNo) (slot : SlotNo) : (switchLane l slot s).fixed = s.fixed := by
  simp only [switchLane]
  (repeat' split) <;> simp

@[simp] theorem closeSplice_fixed (l : LaneNo) : (closeSplice l s).fixed = s.fixed := by
  simp only [closeSplice]
  (repeat' split) <;> simp

@[simp] theorem leaveForFault_fixed (l : LaneNo) (b : Bool) : (leaveForFault l b s).fixed = s.fixed := by
  simp only [leaveForFault]
  (repeat' split) <;> simp

@[simp] theorem faultEntry_fixed (l : LaneNo) (c : FaultCause) (b : Bool) : (faultEntry l c b s).fixed = s.fixed := by
  simp only [faultEntry]
  (repeat' split) <;> simp

@[simp] theorem zoneStep_fixed (l : LaneNo) (lw : Nat) (sense : Option Sense) : (zoneStep l lw sense s).fixed = s.fixed := by
  simp only [zoneStep]
  (repeat' split) <;> simp

@[simp] theorem slipStep_fixed (l : LaneNo) (slip : Bool) : (slipStep l slip s).fixed = s.fixed := by
  simp only [slipStep]
  (repeat' split) <;> simp

@[simp] theorem periodDecision_fixed (l : LaneNo) : (periodDecision l s).fixed = s.fixed := by
  simp only [periodDecision]
  (repeat' split) <;> simp

@[simp] theorem periodStep_fixed (l : LaneNo) (b : BandResult) (slip : Bool) : (periodStep l b slip s).fixed = s.fixed := by
  simp only [periodStep]
  (repeat' split) <;> simp

@[simp] theorem reopenWindow_fixed (l : LaneNo) : (reopenWindow l s).fixed = s.fixed := by
  simp only [reopenWindow]
  (repeat' split) <;> simp

@[simp] theorem windowEndAt_fixed (l : LaneNo) (k : PosNo) : (windowEndAt l k s).fixed = s.fixed := by
  simp only [windowEndAt]
  (repeat' split) <;> simp

@[simp] theorem windowEnd_fixed (l : LaneNo) : (windowEnd l s).fixed = s.fixed := by
  simp only [windowEnd]
  (repeat' split) <;> simp

@[simp] theorem windowEndIfMet_fixed (l : LaneNo) : (windowEndIfMet l s).fixed = s.fixed := by
  simp only [windowEndIfMet]
  (repeat' split) <;> simp

@[simp] theorem flyerPulse_fixed (l : LaneNo) : (flyerPulse l s).fixed = s.fixed := by
  simp only [flyerPulse]
  (repeat' split) <;> simp

@[simp] theorem capstanPulse_fixed (l : LaneNo) : (capstanPulse l s).fixed = s.fixed := by
  simp only [capstanPulse]
  (repeat' split) <;> simp

@[simp] theorem spliceOverlongIfMet_fixed (l : LaneNo) : (spliceOverlongIfMet l s).fixed = s.fixed := by
  simp only [spliceOverlongIfMet]
  (repeat' split) <;> simp

@[simp] theorem spliceBegin_fixed (l : LaneNo) : (spliceBegin l s).fixed = s.fixed := by
  simp only [spliceBegin]
  (repeat' split) <;> simp

@[simp] theorem spliceEnd_fixed (l : LaneNo) : (spliceEnd l s).fixed = s.fixed := by
  simp [spliceEnd]

@[simp] theorem feedCheck_fixed (r : Nat) : (feedCheck r s).fixed = s.fixed := by
  simp only [feedCheck]
  (repeat' split) <;> simp

@[simp] theorem captureLanes_fixed : (captureLanes s).fixed = s.fixed := by
  simp [captureLanes]

@[simp] theorem panelEndTest_fixed : (panelEndTest s).fixed = s.fixed := by
  simp only [panelEndTest]
  (repeat' split) <;> simp

@[simp] theorem tailReachedIfMet_fixed : (tailReachedIfMet s).fixed = s.fixed := by
  simp only [tailReachedIfMet]
  (repeat' split) <;> simp

@[simp] theorem rowJoins_fixed (r : Nat) (captured : List Nat) (fails : LaneSet) : (rowJoins r captured fails s).fixed = s.fixed := by
  simp [rowJoins]

@[simp] theorem rowSkipped_fixed (r : Nat) (captured : List Nat) (fails : LaneSet) : (rowSkipped r captured fails s).fixed = s.fixed := by
  simp [rowSkipped]

@[simp] theorem advanceRow_fixed : (advanceRow s).fixed = s.fixed := by
  simp [advanceRow]

@[simp] theorem rowFallsDue_fixed : (rowFallsDue s).fixed = s.fixed := by
  simp only [rowFallsDue]
  (repeat' split) <;> simp

@[simp] theorem rowFallsDueIfMet_fixed : (rowFallsDueIfMet s).fixed = s.fixed := by
  simp only [rowFallsDueIfMet]
  (repeat' split) <;> simp

@[simp] theorem closeRow_fixed (row : RowRecord) (ms : List Mark) (count : Panel → Panel) : (closeRow row ms count s).fixed = s.fixed := by
  simp [closeRow]

@[simp] theorem rowTimesOut_fixed (row : RowRecord) : (rowTimesOut row s).fixed = s.fixed := by
  simp [rowTimesOut]

@[simp] theorem rowTimeoutIfMet_fixed : (rowTimeoutIfMet s).fixed = s.fixed := by
  simp only [rowTimeoutIfMet]
  (repeat' split) <;> simp

@[simp] theorem rowKnotted_fixed (row : RowRecord) (tied : JunctionSet) : (rowKnotted row tied s).fixed = s.fixed := by
  simp [rowKnotted]

@[simp] theorem openPanel_fixed : (openPanel s).fixed = s.fixed := by
  simp [openPanel]

@[simp] theorem closePanel_fixed : (closePanel s).fixed = s.fixed := by
  simp only [closePanel]
  (repeat' split) <;> simp

@[simp] theorem cutLane_fixed (isEnd : Bool) (l : LaneNo) : (cutLane isEnd l s).fixed = s.fixed := by
  simp [cutLane]

@[simp] theorem queuePackage_fixed (pkg : Package) (lanes : LaneSet) : (queuePackage pkg lanes s).fixed = s.fixed := by
  simp [queuePackage]

@[simp] theorem laneSwitch_fixed (isEnd : Bool) (l : LaneNo) : (laneSwitch isEnd l s).fixed = s.fixed := by
  simp only [laneSwitch]
  (repeat' split) <;> simp

@[simp] theorem lineSwitch_fixed (slot : SlotNo) : (lineSwitch slot s).fixed = s.fixed := by
  simp only [lineSwitch, raise_fixed]
  rw [forLanes_keeps State.fixed _ fun l t => switchLane_fixed t l slot]
  simp

@[simp] theorem pendingLineSwitch_fixed : (pendingLineSwitch s).fixed = s.fixed := by
  simp only [pendingLineSwitch]
  (repeat' split) <;> simp

@[simp] theorem removeEntry_fixed (fits : CutEntry → Bool) : (removeEntry fits s).fixed = s.fixed := by
  simp [removeEntry]

@[simp] theorem afterCoilCut_fixed (isEnd : Bool) (l : LaneNo) : (afterCoilCut isEnd l s).fixed = s.fixed := by
  simp only [afterCoilCut]
  (repeat' split) <;> simp

@[simp] theorem acceptCoil_fixed (l : LaneNo) (reason : CutReason) : (acceptCoil l reason s).fixed = s.fixed := by
  simp [acceptCoil]

@[simp] theorem acceptPanel_fixed (lanes : LaneSet) : (acceptPanel lanes s).fixed = s.fixed := by
  simp only [acceptPanel, joinDeferred_fixed, closePanel_fixed, pendingLineSwitch_fixed, queuePackage_fixed,
    removeEntry_fixed]
  rw [forLanes_keeps State.fixed _ fun l t => cutLane_fixed t false l]

@[simp] theorem acceptCut_fixed (w : CutWhat) : (acceptCut w s).fixed = s.fixed := by
  simp only [acceptCut]
  (repeat' split) <;> simp

@[simp] theorem threadingEnd_fixed (l : LaneNo) : (threadingEnd l s).fixed = s.fixed := by
  simp only [threadingEnd]
  (repeat' split) <;> simp

@[simp] theorem threadingEndIfMet_fixed (l : LaneNo) : (threadingEndIfMet l s).fixed = s.fixed := by
  simp only [threadingEndIfMet]
  (repeat' split) <;> simp

@[simp] theorem startLane_fixed (l : LaneNo) : (startLane l s).fixed = s.fixed := by
  simp [startLane]

@[simp] theorem leaveForStop_fixed (l : LaneNo) : (leaveForStop l s).fixed = s.fixed := by
  simp only [leaveForStop]
  (repeat' split) <;> simp

@[simp] theorem stopLane_fixed (l : LaneNo) : (stopLane l s).fixed = s.fixed := by
  simp [stopLane]

@[simp] theorem clearLane_fixed (l : LaneNo) : (clearLane l s).fixed = s.fixed := by
  simp [clearLane]

@[simp] theorem changeMode_fixed (m : LineMode) : (changeMode m s).fixed = s.fixed := rfl

@[simp] theorem unmapPosition_fixed (k : Option PosNo) : (unmapPosition k s).fixed = s.fixed := by
  simp only [unmapPosition]
  (repeat' split) <;> simp

@[simp] theorem mapPosition_fixed (k : Option PosNo) (l : LaneNo) : (mapPosition k l s).fixed = s.fixed := by
  simp only [mapPosition]
  (repeat' split) <;> simp

@[simp] theorem mapLane_fixed (l : LaneNo) (target : Option PosNo) : (mapLane l target s).fixed = s.fixed := by
  simp [mapLane]

@[simp] theorem laneWatchers_fixed (l : LaneNo) : (laneWatchers l s).fixed = s.fixed := by
  simp [laneWatchers]

@[simp] theorem tallyLimit_fixed (l : LaneNo) : (tallyLimit l s).fixed = s.fixed := by
  simp only [tallyLimit]
  (repeat' split) <;> simp

@[simp] theorem countPastCeiling_fixed (l : LaneNo) : (countPastCeiling l s).fixed = s.fixed := by
  simp only [countPastCeiling]
  (repeat' split) <;> simp

@[simp] theorem laneForward_fixed (l : LaneNo) (k : Nat) : (laneForward l k s).fixed = s.fixed := by
  simp only [laneForward]
  (repeat' split) <;> simp

@[simp] theorem laneReverse_fixed (l : LaneNo) (k : Nat) : (laneReverse l k s).fixed = s.fixed := by
  simp only [laneReverse]
  (repeat' split) <;> simp

@[simp] theorem laneCount_fixed (d : Direction) (kf : Nat) (l : LaneNo) : (laneCount d kf l s).fixed = s.fixed := by
  simp only [laneCount]
  (repeat' split) <;> simp

@[simp] theorem tallyLimitIfMet_fixed (l : LaneNo) : (tallyLimitIfMet l s).fixed = s.fixed := by
  simp only [tallyLimitIfMet]
  (repeat' split) <;> simp

@[simp] theorem drawRowEvents_fixed : (drawRowEvents s).fixed = s.fixed := by
  simp only [drawRowEvents]
  (repeat' split) <;> simp

@[simp] theorem drawWatchers_fixed : (drawWatchers s).fixed = s.fixed := by
  simp [drawWatchers]

@[simp] theorem assignAtOnce_fixed (t : AssignTarget) (slot : SlotNo) : (assignAtOnce t slot s).fixed = s.fixed := by
  simp only [assignAtOnce]
  (repeat' split) <;> simp

@[simp] theorem assignAtCut_fixed (t : AssignTarget) (slot : SlotNo) : (assignAtCut t slot s).fixed = s.fixed := by
  simp only [assignAtCut]
  (repeat' split) <;> simp

@[simp] theorem serveCalibrate_fixed (bs : List Byte) : (serveCalibrate bs s).state.fixed = s.fixed := by
  simp only [serveCalibrate]
  (repeat' split) <;> simp

@[simp] theorem serveSpliceBegin_fixed (bs : List Byte) : (serveSpliceBegin bs s).state.fixed = s.fixed := serveLane_fixed _ _ _ fun l => by (repeat' split) <;> simp

@[simp] theorem serveSpliceEnd_fixed (bs : List Byte) : (serveSpliceEnd bs s).state.fixed = s.fixed := serveLane_fixed _ _ _ fun l => by (repeat' split) <;> simp

@[simp] theorem serveKnotDone_fixed (bs : List Byte) : (serveKnotDone bs s).state.fixed = s.fixed := by
  simp only [serveKnotDone]
  (repeat' split) <;> simp

@[simp] theorem servePanelStart_fixed : (servePanelStart s).state.fixed = s.fixed := by
  simp only [servePanelStart]
  (repeat' split) <;> simp

@[simp] theorem servePanelHalt_fixed : (servePanelHalt s).state.fixed = s.fixed := by
  simp only [servePanelHalt]
  (repeat' split) <;> simp

@[simp] theorem serveCutDone_fixed (bs : List Byte) : (serveCutDone bs s).state.fixed = s.fixed := by
  simp only [serveCutDone]
  (repeat' split) <;> simp

@[simp] theorem serveReleasePackage_fixed : (serveReleasePackage s).state.fixed = s.fixed := by
  simp only [serveReleasePackage]
  (repeat' split) <;> simp

@[simp] theorem serveStartLane_fixed (bs : List Byte) : (serveStartLane bs s).state.fixed = s.fixed := serveLane_fixed _ _ _ fun l => by (repeat' split) <;> simp

@[simp] theorem serveStopLane_fixed (bs : List Byte) : (serveStopLane bs s).state.fixed = s.fixed := serveLane_fixed _ _ _ fun l => by (repeat' split) <;> simp

@[simp] theorem serveClearLane_fixed (bs : List Byte) : (serveClearLane bs s).state.fixed = s.fixed := serveLane_fixed _ _ _ fun l => by (repeat' split) <;> simp

@[simp] theorem serveSetMode_fixed (bs : List Byte) : (serveSetMode bs s).state.fixed = s.fixed := by
  simp only [serveSetMode]
  (repeat' split) <;> simp

@[simp] theorem serveMapLane_fixed (bs : List Byte) : (serveMapLane bs s).state.fixed = s.fixed := by
  simp only [serveMapLane]
  (repeat' split) <;> simp

@[simp] theorem servePositionField_fixed (k : PosNo) (field : PositionField) (bs : List Byte) : (servePositionField k field bs s).state.fixed = s.fixed := by
  simp only [servePositionField]
  (repeat' split) <;> simp

@[simp] theorem serveClearCounts_fixed (bs : List Byte) : (serveClearCounts bs s).state.fixed = s.fixed := by
  simp [serveClearCounts]

@[simp] theorem serveSetGeometry_fixed (bs : List Byte) : (serveSetGeometry bs s).state.fixed = s.fixed := by
  simp only [serveSetGeometry]
  (repeat' split) <;> simp

@[simp] theorem serveSetFactor_fixed (bs : List Byte) : (serveSetFactor bs s).state.fixed = s.fixed := by
  simp only [serveSetFactor]
  (repeat' split) <;> simp

@[simp] theorem serveAssignRecipe_fixed (bs : List Byte) : (serveAssignRecipe bs s).state.fixed = s.fixed := by
  simp only [serveAssignRecipe]
  (repeat' split) <;> simp

@[simp] theorem serveAckStop_fixed (bs : List Byte) : (serveAckStop bs s).state.fixed = s.fixed := by
  simp only [serveAckStop]
  (repeat' split) <;> simp

end Fixed

end Sys2Proof.Machine
end

