-- ==== Sys2Proof/Laws/Ports.lean ====
section
/-! SUPPORT. Bytes at a port, the arbiter's turn, and what a whole command comes to when no other step waits. -/

namespace Sys2Proof.Machine

variable {s t : State} {p q : PortNo}

/-! ### Merging updates -/

@[simp] theorem State.modPort_modPort (s : State) (p : PortNo) (f g : Port → Port) :
    (s.modPort p f).modPort p g = s.modPort p fun P => g (f P) := by
  simp [State.modPort]

theorem State.modPort_id (s : State) (p : PortNo) (f : Port → Port) (h : f (s.port p) = s.port p) :
    s.modPort p f = s := by
  simp only [State.port, Fin.getElem_fin] at h
  simp [State.modPort, h]

/-- An update of a port sees the port's present record only. -/
theorem State.modPort_congr (s : State) (p : PortNo) (f g : Port → Port) (h : f (s.port p) = g (s.port p)) :
    s.modPort p f = s.modPort p g := by
  simp only [State.port, Fin.getElem_fin] at h
  simp [State.modPort, h]

/-! ### What `fixed` fixes -/

theorem port_core_of_fixed (h : t.fixed = s.fixed) (q : PortNo) : (t.port q).core = (s.port q).core :=
  congrFun (congrArg Prod.fst h) q

theorem isWaiting_of_fixed (h : t.fixed = s.fixed) (q : PortNo) :
    (t.port q).isWaiting = (s.port q).isWaiting := by
  have := congrArg Port.isWaiting (port_core_of_fixed h q)
  simpa [Port.core, Port.isWaiting] using this

theorem held_of_fixed (h : t.fixed = s.fixed) (q : PortNo) : (t.port q).held = (s.port q).held :=
  (congrArg Port.held (port_core_of_fixed h q) :)

theorem role_of_fixed (h : t.fixed = s.fixed) (q : PortNo) : (t.port q).role = (s.port q).role :=
  (congrArg Port.role (port_core_of_fixed h q) :)

theorem turn_of_fixed (h : t.fixed = s.fixed) : t.turn = s.turn := congrArg (·.2.1) h

theorem inputs_of_fixed (h : t.fixed = s.fixed) : t.inputs = s.inputs := congrArg (·.2.2.1) h

theorem forcing_of_fixed (h : t.fixed = s.fixed) : t.forcing = s.forcing := congrArg (·.2.2.2.1) h

theorem pending_of_fixed (h : t.fixed = s.fixed) : t.pending = s.pending := congrArg (·.2.2.2.2.1) h

theorem recipes_of_fixed (h : t.fixed = s.fixed) : t.recipes = s.recipes := congrArg (·.2.2.2.2.2) h

/-! ### Bytes arriving -/

/-- A byte at a port whose step does not wait is taken at once. -/
theorem arrive_idle (h : (s.port p).isWaiting = false) (b : HeldByte) :
    arrive p b s = s.modPort p (Port.takeByte b) := by
  simp [arrive, h]

/-- The data bytes of a step complete it. -/
theorem arriveData_completes (bs : List Byte) (hne : bs ≠ []) (hp : (s.port p).phase = .parameters)
    (hw : (s.port p).stepWidth = (s.port p).stepBytes.length + bs.length) :
    arriveData p bs s
      = s.modPort p fun P => { P with stepBytes := P.stepBytes ++ bs, phase := .waiting } := by
  induction bs generalizing s with
  | nil => exact absurd rfl hne
  | cons b rest ih =>
    have h1 : arrive p ⟨false, b⟩ s = s.modPort p fun P => P.addByte b := by
      rw [arrive_idle (by simp [Port.isWaiting, hp])]
      exact State.modPort_congr _ _ _ _ (by simp [Port.takeByte, Port.takeData, hp])
    show arriveData p rest (arrive p ⟨false, b⟩ s) = _
    rw [h1]
    cases rest with
    | nil =>
      exact State.modPort_congr _ _ _ _ (by simp_all [Port.addByte])
    | cons c cs =>
      rw [ih (by simp) (by simp_all [Port.addByte])
        (by simp_all [Port.addByte, Port.stepWidth, Port.command]; omega), State.modPort_modPort]
      exact State.modPort_congr _ _ _ _ (by simp [Port.addByte])

/-! ### The arbiter -/

/-- With one port waiting, the arbiter serves that port. -/
theorem nextWaiting_only (hp : (s.port p).isWaiting = true)
    (hq : ∀ q, q ≠ p → (s.port q).isWaiting = false) : nextWaiting s = some p := by
  have key : ∀ q, (s.port q).isWaiting = decide (q = p) := fun q => by
    by_cases h : q = p
    · subst h; simp [hp]
    · simp [h, hq q h]
  simp only [nextWaiting, turnOrder, List.find?, key]
  generalize s.turn = u
  clear key hq hp
  revert u p
  decide

/-- With one port waiting, serving it through serves it alone. -/
theorem serveWaiting_only (hp : (s.port p).isWaiting = true)
    (hq : ∀ q, q ≠ p → (s.port q).isWaiting = false) :
    serveWaiting p s = drainHeld p (serveStep p s) := by
  simp [serveWaiting, hp, serveThrough, nextWaiting_only hp hq, serveNext]

/-- A port that holds no byte takes none. -/
theorem drainHeld_nil (h : (s.port p).held = []) : drainHeld p s = s := by
  rw [drainHeld, h, drain]
  exact State.modPort_id _ _ _ (by rw [← h])

/-- With no step waiting, the arbiter serves none. -/
theorem serveNext_quiet (h : Quiet s) : serveNext s = s := by
  have : nextWaiting s = none := by simp [nextWaiting, h]
  simp [serveNext, this]

/-! ### Whole commands -/

/-- The port's record as the arbiter takes the complete step of a command other than READ_STATUS. -/
def Port.asked (c : Command) (bs : List Byte) (P : Port) : Port :=
  { P.opened c.code .incomplete .waiting with stepBytes := bs }

/-- The state as the arbiter takes that step. -/
def State.asked (s : State) (p : PortNo) (c : Command) (bs : List Byte) : State :=
  { s.modPort p (Port.asked c bs) with turn := p }

@[simp] theorem Command.ofCode_code (c : Command) : Command.ofCode c.code = some c := by
  cases c <;> decide

/-- A command byte that a port's role permits opens the command. -/
theorem takeCommand_permitted (c : Command) (hc : c ≠ .readStatus) (P : Port) (h : c.permits P.role = true) :
    P.takeCommand c.code = P.opened c.code .incomplete (firstPhase c) := by
  simp only [Port.takeCommand, Command.ofCode_code]
  cases c <;> simp_all [Port.openNamed]

/-- A command byte that a port's role does not permit is refused. -/
theorem takeCommand_refused (c : Command) (P : Port) (h : c.permits P.role = false) :
    P.takeCommand c.code = P.opened c.code .role .discarding := by
  simp only [Port.takeCommand, Command.ofCode_code]
  cases c <;> simp_all [Port.openNamed, Command.permits]

/-- The bytes of a whole command at a quiet port leave its step waiting. -/
theorem command_arrives (c : Command) (hc : c ≠ .readStatus) (bs : List Byte) (hs : Quiet s)
    (hr : c.permits (s.port p).role = true) (hb : bs.length = c.firstBytes) :
    arriveData p bs (arrive p ⟨true, c.code⟩ s) = s.modPort p (Port.asked c bs) := by
  have h1 : arrive p ⟨true, c.code⟩ s = s.modPort p (Port.opened c.code .incomplete (firstPhase c)) := by
    rw [arrive_idle (hs p)]
    exact State.modPort_congr _ _ _ _ (by simp [Port.takeByte, takeCommand_permitted c hc _ hr])
  rw [h1]
  cases bs with
  | nil =>
    have : firstPhase c = .waiting := by simp [firstPhase, ← hb]
    exact State.modPort_congr _ _ _ _ (by simp [this, Port.asked, Port.opened, Port.close])
  | cons b rest =>
    have : firstPhase c = .parameters := by simp [firstPhase, ← hb]
    rw [arriveData_completes (b :: rest) (by simp) (by simp [this, Port.opened])
      (by simp [Port.opened, Port.close, Port.stepWidth, Port.command, ← hb]), State.modPort_modPort]
    exact State.modPort_congr _ _ _ _ (by simp [this, Port.asked, Port.opened, Port.close])

/-- A whole command at a port where no step waits comes to the service of its step (R161, R163, R168). -/
theorem giveCommand_ready (c : Command) (hc : c ≠ .readStatus) (bs : List Byte) (hs : Quiet s)
    (hr : c.permits (s.port p).role = true) (hb : bs.length = c.firstBytes) :
    giveCommand p c bs s = drainHeld p (serveCommand p c bs (s.asked p c bs)) := by
  have hw : (s.port p).awaits c bs = false := by simp [Port.awaits, hs p]
  rw [giveCommand, hw]
  simp only [Bool.false_eq_true, if_false]
  rw [command_arrives c hc bs hs hr hb,
    serveWaiting_only (by simp [Port.isWaiting, Port.asked, Port.opened])
      (fun q hq => by simp [State.modPort_port, hq, hs q])]
  simp [serveStep, Port.asked, Port.opened, Port.close, Port.command, State.asked]

/-- READ_STATUS at a port where no step waits (R161, R169). -/
theorem giveCommand_readStatus (hs : Quiet s) :
    giveCommand p .readStatus [] s
      = drainHeld p (finishStatus p (readStatus p { s.modPort p Port.openedStatus with turn := p })) := by
  have hw : (s.port p).awaits .readStatus [] = false := by simp [Port.awaits, hs p]
  rw [giveCommand, hw]
  simp only [Bool.false_eq_true, if_false]
  have h1 : arrive p ⟨true, Command.readStatus.code⟩ s = s.modPort p Port.openedStatus := by
    rw [arrive_idle (hs p)]
    exact State.modPort_congr _ _ _ _ (by simp [Port.takeByte, Port.takeCommand, Port.openNamed])
  rw [show arriveData p [] (arrive p ⟨true, Command.readStatus.code⟩ s) = _ from h1,
    serveWaiting_only (by simp [Port.isWaiting, Port.openedStatus])
      (fun q hq => by simp [State.modPort_port, hq, hs q])]
  simp [serveStep, Port.openedStatus, Port.close, Port.command, serveCommand]

end Sys2Proof.Machine
end

