-- ==== Sys2Proof/Laws/OnPort.lean ====
section
/-! SUPPORT. The operations of the records do not look at the ports: an operation on a state whose port has been
changed gives what the operation gives, with the port changed. One lemma per operation; and from them, what a
whole command comes to. -/

namespace Sys2Proof.Machine

/-- The state with one port changed and the turn pointer on it. -/
def State.onPort (s : State) (p : PortNo) (F : Port → Port) (u : PortNo) : State :=
  { s.modPort p F with turn := u }

/-- A change of a port that does not look at its notice set. -/
def Natural (F : Port → Port) : Prop := ∀ P k ls, F (Port.notify k ls P) = Port.notify k ls (F P)

/-- The outcome of a service with a port changed in its state. -/
def Served.onPort (r : Served) (p : PortNo) (F : Port → Port) (u : PortNo) : Served :=
  { r with state := r.state.onPort p F u }

@[simp] theorem refuse_onPort (r : Result) (s : State) (p : PortNo) (F : Port → Port) (u : PortNo) :
    refuse r (s.onPort p F u) = (refuse r s).onPort p F u := rfl

@[simp] theorem accept_onPort (s : State) (p : PortNo) (F : Port → Port) (u : PortNo) :
    accept (s.onPort p F u) = (accept s).onPort p F u := rfl

section OnPort

variable (s : State) (p : PortNo) (F : Port → Port) (u : PortNo)

@[simp] theorem onPort_lanes : (s.onPort p F u).lanes = s.lanes := rfl
@[simp] theorem onPort_positions : (s.onPort p F u).positions = s.positions := rfl
@[simp] theorem onPort_cals : (s.onPort p F u).cals = s.cals := rfl
@[simp] theorem onPort_recipes : (s.onPort p F u).recipes = s.recipes := rfl
@[simp] theorem onPort_marks : (s.onPort p F u).marks = s.marks := rfl
@[simp] theorem onPort_line : (s.onPort p F u).line = s.line := rfl
@[simp] theorem onPort_panel : (s.onPort p F u).panel = s.panel := rfl
@[simp] theorem onPort_rows : (s.onPort p F u).rows = s.rows := rfl
@[simp] theorem onPort_cuts : (s.onPort p F u).cuts = s.cuts := rfl
@[simp] theorem onPort_stops : (s.onPort p F u).stops = s.stops := rfl
@[simp] theorem onPort_forcing : (s.onPort p F u).forcing = s.forcing := rfl
@[simp] theorem onPort_inputs : (s.onPort p F u).inputs = s.inputs := rfl
@[simp] theorem onPort_freeTick : (s.onPort p F u).freeTick = s.freeTick := rfl
@[simp] theorem onPort_pending : (s.onPort p F u).pending = s.pending := rfl
@[simp] theorem onPort_lane (l : LaneNo) : (s.onPort p F u).lane l = s.lane l := rfl
@[simp] theorem onPort_position (k : PosNo) : (s.onPort p F u).position k = s.position k := rfl
@[simp] theorem onPort_cal (k : PosNo) : (s.onPort p F u).cal k = s.cal k := rfl
@[simp] theorem onPort_recipe (i : SlotNo) : (s.onPort p F u).recipe i = s.recipe i := rfl
@[simp] theorem onPort_markList (l : LaneNo) : (s.onPort p F u).markList l = s.markList l := rfl
@[simp] theorem onPort_cutterCoord (l : LaneNo) : (s.onPort p F u).cutterCoord l = s.cutterCoord l := rfl
@[simp] theorem onPort_activeRecipe (l : LaneNo) : (s.onPort p F u).activeRecipe l = s.activeRecipe l := rfl
@[simp] theorem onPort_knotterOf (um : Nat) : (s.onPort p F u).knotterOf um = s.knotterOf um := rfl
@[simp] theorem onPort_marksHeld : (s.onPort p F u).marksHeld = s.marksHeld := rfl
@[simp] theorem onPort_freeEntries : (s.onPort p F u).freeEntries = s.freeEntries := rfl
@[simp] theorem onPort_drawUm : (s.onPort p F u).drawUm = s.drawUm := rfl
@[simp] theorem onPort_lineRecipe : (s.onPort p F u).lineRecipe = s.lineRecipe := rfl
@[simp] theorem onPort_panelOpen : (s.onPort p F u).panelOpen = s.panelOpen := rfl
@[simp] theorem onPort_netSet : (s.onPort p F u).netSet = s.netSet := rfl
@[simp] theorem onPort_allIdle : (s.onPort p F u).allIdle = s.allIdle := rfl
@[simp] theorem onPort_freeOrder : (s.onPort p F u).freeOrder = s.freeOrder := rfl
@[simp] theorem onPort_panelWidth : (s.onPort p F u).panelWidth = s.panelWidth := rfl
@[simp] theorem onPort_panelLanes : (s.onPort p F u).panelLanes = s.panelLanes := rfl
@[simp] theorem onPort_passAEdges (k : PosNo) :
    passAEdges (s.onPort p F u) k = passAEdges s k := rfl
@[simp] theorem onPort_passAMet (k : PosNo) :
    passAMet k (s.onPort p F u) = passAMet k s := rfl
@[simp] theorem onPort_passBMet (k : PosNo) :
    passBMet k (s.onPort p F u) = passBMet k s := rfl
@[simp] theorem onPort_mappedInRun (k : PosNo) :
    mappedInRun (s.onPort p F u) k = mappedInRun s k := rfl
@[simp] theorem onPort_cutIsLate (w : CutWhat) (d : Nat) :
    cutIsLate (s.onPort p F u) w d = cutIsLate s w d := rfl
@[simp] theorem onPort_newlyLate (sel : CutWhat → Bool) :
    newlyLate (s.onPort p F u) sel = newlyLate s sel := rfl
@[simp] theorem onPort_entryRetest (sel : CutWhat → Bool) :
    CutEntry.retest (s.onPort p F u) sel = CutEntry.retest s sel := rfl
@[simp] theorem onPort_deferredRetest (sel : CutWhat → Bool) :
    DeferredCut.retest (s.onPort p F u) sel = DeferredCut.retest s sel := rfl
@[simp] theorem onPort_coilCutMet (l : LaneNo) :
    coilCutMet l (s.onPort p F u) = coilCutMet l s := rfl
@[simp] theorem onPort_spliceCount (l : LaneNo) :
    spliceCount (s.onPort p F u) l = spliceCount s l := rfl
@[simp] theorem onPort_windowMet (l : LaneNo) :
    windowMet l (s.onPort p F u) = windowMet l s := rfl
@[simp] theorem onPort_spliceOverlongMet (l : LaneNo) :
    spliceOverlongMet l (s.onPort p F u) = spliceOverlongMet l s := rfl
@[simp] theorem onPort_asksLaneFault (l : LaneNo) :
    asksLaneFault l (s.onPort p F u) = asksLaneFault l s := rfl
@[simp] theorem onPort_rowDue (r : Nat) :
    rowDue (s.onPort p F u) r = rowDue s r := rfl
@[simp] theorem onPort_tailEnd :
    tailEnd (s.onPort p F u) = tailEnd s := rfl
@[simp] theorem onPort_expectedSet (r : Nat) :
    expectedSet (s.onPort p F u) r = expectedSet s r := rfl
@[simp] theorem onPort_failingLanes (r : Nat) :
    failingLanes (s.onPort p F u) r = failingLanes s r := rfl
@[simp] theorem onPort_feedStops (r : Nat) :
    feedStops (s.onPort p F u) r = feedStops s r := rfl
@[simp] theorem onPort_pitchMark (r : Nat) :
    pitchMark (s.onPort p F u) r = pitchMark s r := rfl
@[simp] theorem onPort_knotMarks (k : MarkKind) (r : Nat) (c : List Nat) (js : JunctionSet) :
    knotMarks (s.onPort p F u) k r c js = knotMarks s k r c js := rfl
@[simp] theorem onPort_panelEndMet :
    panelEndMet (s.onPort p F u) = panelEndMet s := rfl
@[simp] theorem onPort_tailMet :
    tailMet (s.onPort p F u) = tailMet s := rfl
@[simp] theorem onPort_rowRecord (r : Nat) (c : List Nat) :
    rowRecord (s.onPort p F u) r c = rowRecord s r c := rfl
@[simp] theorem onPort_rowDueMet :
    rowDueMet (s.onPort p F u) = rowDueMet s := rfl
@[simp] theorem onPort_rowTimeoutMet :
    rowTimeoutMet (s.onPort p F u) = rowTimeoutMet s := rfl
@[simp] theorem onPort_tiedDrops (b : Byte) :
    tiedDrops (s.onPort p F u) b = tiedDrops s b := rfl
@[simp] theorem onPort_tiedSet (b : Byte) :
    tiedSet (s.onPort p F u) b = tiedSet s b := rfl
@[simp] theorem onPort_cutPosition (l : LaneNo) :
    cutPosition (s.onPort p F u) l = cutPosition s l := rfl
@[simp] theorem onPort_laneCut (e : Bool) :
    laneCut e (s.onPort p F u) = laneCut e s := rfl
@[simp] theorem onPort_packageOf (k : PackageKind) (l : Option LaneNo) (i : SlotNo) (r : Option Nat) (g : PackageFlags) (cs : List LaneCut) :
    packageOf (s.onPort p F u) k l i r g cs = packageOf s k l i r g cs := rfl
@[simp] theorem onPort_lanesInUse :
    lanesInUse (s.onPort p F u) = lanesInUse s := rfl
@[simp] theorem onPort_threadingMet (l : LaneNo) :
    threadingMet l (s.onPort p F u) = threadingMet l s := rfl
@[simp] theorem onPort_onServicePosition (l : LaneNo) :
    onServicePosition (s.onPort p F u) l = onServicePosition s l := rfl
@[simp] theorem onPort_startRecipe (l : LaneNo) :
    startRecipe (s.onPort p F u) l = startRecipe s l := rfl
@[simp] theorem onPort_heldInPanel (l : LaneNo) :
    heldInPanel (s.onPort p F u) l = heldInPanel s l := rfl
@[simp] theorem onPort_mapConflict (l : LaneNo) (k : Option PosNo) :
    mapConflict (s.onPort p F u) l k = mapConflict s l k := rfl
@[simp] theorem onPort_mappedInUse (k : PosNo) :
    mappedInUse (s.onPort p F u) k = mappedInUse s k := rfl
@[simp] theorem onPort_positionFieldRefused (k : PosNo) (g : PositionField) (v : Nat) :
    positionFieldRefused (s.onPort p F u) k g v = positionFieldRefused s k g v := rfl
@[simp] theorem onPort_slotInUse (i : SlotNo) :
    slotInUse (s.onPort p F u) i = slotInUse s i := rfl
@[simp] theorem onPort_wrongMode (t : AssignTarget) :
    wrongMode (s.onPort p F u) t = wrongMode s t := rfl
@[simp] theorem onPort_nowRefused (t : AssignTarget) :
    nowRefused (s.onPort p F u) t = nowRefused s t := rfl
@[simp] theorem onPort_stillFaulted :
    stillFaulted (s.onPort p F u) = stillFaulted s := rfl
@[simp] theorem onPort_ackedStops (b : Byte) :
    ackedStops b (s.onPort p F u) = ackedStops b s := rfl

@[simp] theorem onPort_setLane (l : LaneNo) (x : Lane) :
    (s.onPort p F u).setLane l x = (s.setLane l x).onPort p F u := rfl
@[simp] theorem onPort_modLane (l : LaneNo) (f : Lane → Lane) :
    (s.onPort p F u).modLane l f = (s.modLane l f).onPort p F u := rfl
@[simp] theorem onPort_mapLanes (f : Lane → Lane) :
    (s.onPort p F u).mapLanes f = (s.mapLanes f).onPort p F u := rfl
@[simp] theorem onPort_modPosition (k : PosNo) (f : Position → Position) :
    (s.onPort p F u).modPosition k f = (s.modPosition k f).onPort p F u := rfl
@[simp] theorem onPort_modCal (k : PosNo) (f : CalRecord → CalRecord) :
    (s.onPort p F u).modCal k f = (s.modCal k f).onPort p F u := rfl
@[simp] theorem onPort_setMarkList (l : LaneNo) (ms : List Mark) :
    (s.onPort p F u).setMarkList l ms = (s.setMarkList l ms).onPort p F u := rfl
@[simp] theorem onPort_modCuts (f : CutUnit → CutUnit) :
    (s.onPort p F u).modCuts f = (s.modCuts f).onPort p F u := rfl
@[simp] theorem onPort_modPanel (f : Panel → Panel) :
    (s.onPort p F u).modPanel f = (s.modPanel f).onPort p F u := rfl
@[simp] theorem onPort_useFree (n : Nat) :
    (s.onPort p F u).useFree n = (s.useFree n).onPort p F u := rfl
theorem onPort_withMarks (x : MarkStore) :
    ({ (s.onPort p F u) with marks := x } : State) = State.onPort { s with marks := x } p F u := rfl
theorem onPort_withLine (x : Line) :
    ({ (s.onPort p F u) with line := x } : State) = State.onPort { s with line := x } p F u := rfl
theorem onPort_withRows (x : List RowRecord) :
    ({ (s.onPort p F u) with rows := x } : State) = State.onPort { s with rows := x } p F u := rfl
theorem onPort_withPanel (x : Panel) :
    ({ (s.onPort p F u) with panel := x } : State) = State.onPort { s with panel := x } p F u := rfl
theorem onPort_withRowsPanel (x : List RowRecord) (y : Panel) :
    ({ (s.onPort p F u) with rows := x, panel := y } : State) = State.onPort { s with rows := x, panel := y } p F u := rfl
theorem onPort_withLinePanel (x : Line) (y : Panel) :
    ({ (s.onPort p F u) with line := x, panel := y } : State) = State.onPort { s with line := x, panel := y } p F u := rfl
theorem onPort_withStops (x : StopUnit) :
    ({ (s.onPort p F u) with stops := x } : State) = State.onPort { s with stops := x } p F u := rfl

@[simp] theorem onPort_raise (hf : Natural F) (k : NoticeKind) (ls : LaneSet) :
    State.raise k ls (s.onPort p F u) = (State.raise k ls s).onPort p F u := by
  have h : ∀ P, F (Port.notify k ls P) = Port.notify k ls (F P) := fun P => hf P k ls
  fin_cases p <;> simp [State.raise, State.onPort, State.mapPorts, State.modPort, h]

@[simp] theorem onPort_requestStop (hf : Natural F) (r : StopReason) (ls : LaneSet) :
    State.requestStop r ls (s.onPort p F u) = (State.requestStop r ls s).onPort p F u :=
  onPort_raise { s with stops := s.stops.add r ls } p F u hf .stop ls

theorem onPort_foldl {β : Type} (g : State → β → State)
    (h : ∀ t x, g (t.onPort p F u) x = (g t x).onPort p F u) (xs : List β) :
    xs.foldl g (s.onPort p F u) = (xs.foldl g s).onPort p F u := by
  induction xs generalizing s with
  | nil => rfl
  | cons x xs ih => rw [List.foldl_cons, h, ih]; rfl

theorem onPort_forLanes (g : LaneNo → State → State)
    (h : ∀ l t, g l (t.onPort p F u) = (g l t).onPort p F u) (ls : List LaneNo) :
    forLanes ls g (s.onPort p F u) = (forLanes ls g s).onPort p F u :=
  onPort_foldl s p F u (fun t l => g l t) (fun t l => h l t) ls

@[simp] theorem onPort_forLanes_modLane (ls : List LaneNo) (g : LaneNo → Lane → Lane) :
    forLanes ls (fun l t => t.modLane l (g l)) (s.onPort p F u)
      = (forLanes ls (fun l t => t.modLane l (g l)) s).onPort p F u :=
  onPort_forLanes s p F u (fun l t => t.modLane l (g l)) (fun _ _ => rfl) ls

theorem onPort_serveLane (g : LaneNo → State → Served)
    (h : ∀ l, g l (s.onPort p F u) = (g l s).onPort p F u) (bs : List Byte) :
    serveLane bs g (s.onPort p F u) = (serveLane bs g s).onPort p F u := by
  unfold serveLane
  split
  · rfl
  · exact h _

@[simp] theorem onPort_handMark (m : Mark) :
    handMark m (s.onPort p F u) = (handMark m s).onPort p F u := by
  simp only [handMark]
  (repeat' split) <;> simp_all <;> rfl

@[simp] theorem onPort_handMarks (ms : List Mark) :
    handMarks ms (s.onPort p F u) = (handMarks ms s).onPort p F u := by
  have fold : ∀ (t : State) (xs : List Mark), xs.foldl (fun t m => handMark m t) (t.onPort p F u)
      = (xs.foldl (fun t m => handMark m t) t).onPort p F u :=
    fun t xs => onPort_foldl t p F u (fun t m => handMark m t) (fun t m => onPort_handMark t p F u m) xs
  by_cases h : ms.length ≤ s.freeEntries <;> simp [handMarks, h, fold]

@[simp] theorem onPort_calCount (k : PosNo) (d : Int) :
    calCount k d (s.onPort p F u) = (calCount k d s).onPort p F u := by
  simp only [calCount]
  (repeat' split) <;> simp_all

@[simp] theorem onPort_finishCal (hf : Natural F) (k : PosNo) (r : CalResult) (cause : Option CalCause) :
    finishCal k r cause (s.onPort p F u) = (finishCal k r cause s).onPort p F u := by
  simp [finishCal, hf]

@[simp] theorem onPort_abortCal (hf : Natural F) (l : LaneNo) :
    abortCal l (s.onPort p F u) = (abortCal l s).onPort p F u := by
  simp only [abortCal]
  (repeat' split) <;> simp_all

@[simp] theorem onPort_passAClose (hf : Natural F) (k : PosNo) :
    passAClose k (s.onPort p F u) = (passAClose k s).onPort p F u := by
  simp only [passAClose]
  (repeat' split) <;> simp_all

@[simp] theorem onPort_passACloseIfMet (hf : Natural F) (k : PosNo) :
    passACloseIfMet k (s.onPort p F u) = (passACloseIfMet k s).onPort p F u := by
  simp only [passACloseIfMet]
  (repeat' split) <;> simp_all

@[simp] theorem onPort_calPass (hf : Natural F) (k : PosNo) (factor : Nat) :
    calPass k factor (s.onPort p F u) = (calPass k factor s).onPort p F u := by
  simp only [calPass]
  (repeat' split) <;> simp_all

@[simp] theorem onPort_passBClose (hf : Natural F) (k : PosNo) :
    passBClose k (s.onPort p F u) = (passBClose k s).onPort p F u := by
  simp only [passBClose]
  (repeat' split) <;> simp_all

@[simp] theorem onPort_passBCloseIfMet (hf : Natural F) (k : PosNo) :
    passBCloseIfMet k (s.onPort p F u) = (passBCloseIfMet k s).onPort p F u := by
  simp only [passBCloseIfMet]
  (repeat' split) <;> simp_all

@[simp] theorem onPort_calRising (hf : Natural F) (k : PosNo) :
    calRising k (s.onPort p F u) = (calRising k s).onPort p F u := by
  simp only [calRising]
  (repeat' split) <;> simp_all

@[simp] theorem onPort_calFalling (hf : Natural F) (k : PosNo) :
    calFalling k (s.onPort p F u) = (calFalling k s).onPort p F u := by
  simp only [calFalling]
  (repeat' split) <;> simp_all

@[simp] theorem onPort_requestIfLate (hf : Natural F) (late : Bool) (w : CutWhat) :
    requestIfLate late w (s.onPort p F u) = (requestIfLate late w s).onPort p F u := by
  simp only [requestIfLate]
  (repeat' split) <;> simp_all

@[simp] theorem onPort_setLate (sel : CutWhat → Bool) :
    setLate sel (s.onPort p F u) = (setLate sel s).onPort p F u := by
  simp [setLate]

@[simp] theorem onPort_retestLate (hf : Natural F) (sel : CutWhat → Bool) :
    retestLate sel (s.onPort p F u) = (retestLate sel s).onPort p F u := by
  simp only [retestLate, onPort_newlyLate, onPort_setLate]
  exact onPort_foldl _ p F u _ (fun t d => onPort_requestStop t p F u hf _ _) _

@[simp] theorem onPort_joinCut (hf : Natural F) (w : CutWhat) (due : Nat) (late : Bool) :
    joinCut w due late (s.onPort p F u) = (joinCut w due late s).onPort p F u := by
  simp only [joinCut]
  (repeat' split) <;> simp_all

@[simp] theorem onPort_cutFallsDue (hf : Natural F) (w : CutWhat) (due : Nat) :
    cutFallsDue w due (s.onPort p F u) = (cutFallsDue w due s).onPort p F u := by
  simp only [cutFallsDue]
  (repeat' split) <;> simp_all

@[simp] theorem onPort_leaveDeferredEnd (l : LaneNo) :
    leaveDeferredEnd l (s.onPort p F u) = (leaveDeferredEnd l s).onPort p F u := rfl

@[simp] theorem onPort_joinDeferredCut (hf : Natural F) (d : DeferredCut) :
    joinDeferredCut d (s.onPort p F u) = (joinDeferredCut d s).onPort p F u := by
  simp only [joinDeferredCut]
  (repeat' split) <;> simp_all

@[simp] theorem onPort_joinDeferred (hf : Natural F) :
    joinDeferred (s.onPort p F u) = (joinDeferred s).onPort p F u := by
  simp only [joinDeferred, onPort_cuts, onPort_modCuts]
  exact onPort_foldl _ p F u _ (fun t d => onPort_joinDeferredCut t p F u hf d) _

@[simp] theorem onPort_promoteHeld (hf : Natural F) :
    promoteHeld (s.onPort p F u) = (promoteHeld s).onPort p F u := by
  simp only [promoteHeld]
  (repeat' split) <;> simp_all

@[simp] theorem onPort_coilCutDue (hf : Natural F) (l : LaneNo) :
    coilCutDue l (s.onPort p F u) = (coilCutDue l s).onPort p F u := by
  simp [coilCutDue, hf]

@[simp] theorem onPort_coilCutDueIfMet (hf : Natural F) (l : LaneNo) :
    coilCutDueIfMet l (s.onPort p F u) = (coilCutDueIfMet l s).onPort p F u := by
  simp only [coilCutDueIfMet]
  (repeat' split) <;> simp_all

@[simp] theorem onPort_freshPlan (l : LaneNo) :
    freshPlan l (s.onPort p F u) = (freshPlan l s).onPort p F u := by
  simp [freshPlan]

@[simp] theorem onPort_shortCoilTest (hf : Natural F) (l : LaneNo) (pos : Nat) :
    shortCoilTest l pos (s.onPort p F u) = (shortCoilTest l pos s).onPort p F u := by
  simp only [shortCoilTest, onPort_activeRecipe, onPort_lane, onPort_spliceCount, onPort_modLane,
    onPort_coilCutDueIfMet _ p F u hf]
  split_ifs <;> first | rfl | contradiction

@[simp] theorem onPort_endCutConverts (hf : Natural F) (l : LaneNo) :
    endCutConverts l (s.onPort p F u) = (endCutConverts l s).onPort p F u := by
  simp only [endCutConverts]
  (repeat' split) <;> simp_all

@[simp] theorem onPort_endCutDue (hf : Natural F) (l : LaneNo) :
    endCutDue l (s.onPort p F u) = (endCutDue l s).onPort p F u := by
  simp only [endCutDue]
  (repeat' split) <;> simp_all

@[simp] theorem onPort_cutLateIfMet (hf : Natural F) (c : CutName) :
    cutLateIfMet c (s.onPort p F u) = (cutLateIfMet c s).onPort p F u := by
  simp only [cutLateIfMet, onPort_newlyLate, onPort_cutIsLate, onPort_modCuts]
  exact onPort_foldl _ p F u _ (fun t d => onPort_requestStop t p F u hf _ _) _

@[simp] theorem onPort_setLaneState (hf : Natural F) (l : LaneNo) (st : LaneState) :
    setLaneState l st (s.onPort p F u) = (setLaneState l st s).onPort p F u := by
  simp [setLaneState, hf]

@[simp] theorem onPort_setStartTrim (hf : Natural F) (l : LaneNo) :
    setStartTrim l (s.onPort p F u) = (setStartTrim l s).onPort p F u := by
  simp only [setStartTrim]
  (repeat' split) <;> simp_all

@[simp] theorem onPort_switchLane (hf : Natural F) (l : LaneNo) (slot : SlotNo) :
    switchLane l slot (s.onPort p F u) = (switchLane l slot s).onPort p F u := by
  simp only [switchLane]
  (repeat' split) <;> simp_all

@[simp] theorem onPort_closeSplice (l : LaneNo) :
    closeSplice l (s.onPort p F u) = (closeSplice l s).onPort p F u := by
  simp only [closeSplice]
  (repeat' split) <;> simp_all

@[simp] theorem onPort_leaveForFault (l : LaneNo) (b : Bool) :
    leaveForFault l b (s.onPort p F u) = (leaveForFault l b s).onPort p F u := by
  simp only [leaveForFault]
  (repeat' split) <;> simp_all

@[simp] theorem onPort_faultEntry (hf : Natural F) (l : LaneNo) (c : FaultCause) (b : Bool) :
    faultEntry l c b (s.onPort p F u) = (faultEntry l c b s).onPort p F u := by
  simp only [faultEntry]
  (repeat' split) <;> simp_all

@[simp] theorem onPort_zoneStep (l : LaneNo) (lw : Nat) (sense : Option Sense) :
    zoneStep l lw sense (s.onPort p F u) = (zoneStep l lw sense s).onPort p F u := by
  simp only [zoneStep]
  (repeat' split) <;> simp_all

@[simp] theorem onPort_slipStep (l : LaneNo) (slip : Bool) :
    slipStep l slip (s.onPort p F u) = (slipStep l slip s).onPort p F u := by
  simp only [slipStep]
  (repeat' split) <;> simp_all

@[simp] theorem onPort_periodDecision (hf : Natural F) (l : LaneNo) :
    periodDecision l (s.onPort p F u) = (periodDecision l s).onPort p F u := by
  simp only [periodDecision]
  (repeat' split) <;> simp_all

@[simp] theorem onPort_periodStep (hf : Natural F) (l : LaneNo) (b : BandResult) (slip : Bool) :
    periodStep l b slip (s.onPort p F u) = (periodStep l b slip s).onPort p F u := by
  simp only [periodStep]
  (repeat' split) <;> simp_all

@[simp] theorem onPort_reopenWindow (l : LaneNo) :
    reopenWindow l (s.onPort p F u) = (reopenWindow l s).onPort p F u := by
  simp only [reopenWindow]
  (repeat' split) <;> simp_all

@[simp] theorem onPort_windowEndAt (hf : Natural F) (l : LaneNo) (k : PosNo) :
    windowEndAt l k (s.onPort p F u) = (windowEndAt l k s).onPort p F u := by
  simp only [windowEndAt, onPort_lane, onPort_position, onPort_activeRecipe, onPort_modLane, onPort_zoneStep,
    onPort_slipStep, onPort_faultEntry _ p F u hf, onPort_periodStep _ p F u hf, onPort_reopenWindow]
  split_ifs <;> first | rfl | contradiction

@[simp] theorem onPort_windowEnd (hf : Natural F) (l : LaneNo) :
    windowEnd l (s.onPort p F u) = (windowEnd l s).onPort p F u := by
  simp only [windowEnd]
  (repeat' split) <;> simp_all <;> rfl

@[simp] theorem onPort_windowEndIfMet (hf : Natural F) (l : LaneNo) :
    windowEndIfMet l (s.onPort p F u) = (windowEndIfMet l s).onPort p F u := by
  simp only [windowEndIfMet]
  (repeat' split) <;> simp_all

@[simp] theorem onPort_flyerPulse (l : LaneNo) :
    flyerPulse l (s.onPort p F u) = (flyerPulse l s).onPort p F u := by
  simp only [flyerPulse]
  (repeat' split) <;> simp_all

@[simp] theorem onPort_capstanPulse (l : LaneNo) :
    capstanPulse l (s.onPort p F u) = (capstanPulse l s).onPort p F u := by
  simp only [capstanPulse]
  (repeat' split) <;> simp_all

@[simp] theorem onPort_spliceOverlongIfMet (hf : Natural F) (l : LaneNo) :
    spliceOverlongIfMet l (s.onPort p F u) = (spliceOverlongIfMet l s).onPort p F u := by
  simp only [spliceOverlongIfMet]
  (repeat' split) <;> simp_all

@[simp] theorem onPort_spliceBegin (hf : Natural F) (l : LaneNo) :
    spliceBegin l (s.onPort p F u) = (spliceBegin l s).onPort p F u := by
  simp only [spliceBegin]
  (repeat' split) <;> simp_all

@[simp] theorem onPort_spliceEnd (hf : Natural F) (l : LaneNo) :
    spliceEnd l (s.onPort p F u) = (spliceEnd l s).onPort p F u := by
  simp [spliceEnd, hf]

@[simp] theorem onPort_feedCheck (hf : Natural F) (r : Nat) :
    feedCheck r (s.onPort p F u) = (feedCheck r s).onPort p F u := by
  simp only [feedCheck, onPort_failingLanes, onPort_feedStops, onPort_pitchMark, onPort_handMarks,
    onPort_panelLanes, onPort_forLanes_modLane, onPort_requestStop _ p F u hf]
  split_ifs <;> first | rfl | contradiction

@[simp] theorem onPort_captureLanes :
    captureLanes (s.onPort p F u) = (captureLanes s).onPort p F u := onPort_forLanes s p F u _ (fun l t => onPort_modLane t p F u l _) _

@[simp] theorem onPort_panelEndTest (hf : Natural F) :
    panelEndTest (s.onPort p F u) = (panelEndTest s).onPort p F u := by
  simp only [panelEndTest]
  (repeat' split) <;> simp_all

@[simp] theorem onPort_tailReachedIfMet (hf : Natural F) :
    tailReachedIfMet (s.onPort p F u) = (tailReachedIfMet s).onPort p F u := by
  simp only [tailReachedIfMet]
  (repeat' split) <;> simp_all

@[simp] theorem onPort_rowJoins (hf : Natural F) (r : Nat) (captured : List Nat) (fails : LaneSet) :
    rowJoins r captured fails (s.onPort p F u) = (rowJoins r captured fails s).onPort p F u := by
  exact onPort_raise { s with rows := s.rows ++ [rowRecord s r captured] } p F u hf .rowDue fails

@[simp] theorem onPort_rowSkipped (hf : Natural F) (r : Nat) (captured : List Nat) (fails : LaneSet) :
    rowSkipped r captured fails (s.onPort p F u) = (rowSkipped r captured fails s).onPort p F u := by
  simp [rowSkipped, hf]

@[simp] theorem onPort_advanceRow :
    advanceRow (s.onPort p F u) = (advanceRow s).onPort p F u := by
  simp [advanceRow]
  rfl

@[simp] theorem onPort_rowFallsDue (hf : Natural F) :
    rowFallsDue (s.onPort p F u) = (rowFallsDue s).onPort p F u := by
  simp only [rowFallsDue]
  (repeat' split) <;> simp_all

@[simp] theorem onPort_rowFallsDueIfMet (hf : Natural F) :
    rowFallsDueIfMet (s.onPort p F u) = (rowFallsDueIfMet s).onPort p F u := by
  simp only [rowFallsDueIfMet]
  (repeat' split) <;> simp_all

@[simp] theorem onPort_closeRow (hf : Natural F) (row : RowRecord) (ms : List Mark) (count : Panel → Panel) :
    closeRow row ms count (s.onPort p F u) = (closeRow row ms count s).onPort p F u := by
  have key : ∀ (xs : List RowRecord) (x : Panel), State.raise .rowClosed (lanesOfMarks ms)
      { (handMarks ms s).onPort p F u with rows := xs, panel := x }
      = (State.raise .rowClosed (lanesOfMarks ms) { handMarks ms s with rows := xs, panel := x }).onPort p F u :=
    fun xs x => onPort_raise { handMarks ms s with rows := xs, panel := x } p F u hf _ _
  simp only [closeRow, onPort_handMarks]
  rw [key, onPort_panelEndTest _ p F u hf]
  rfl

@[simp] theorem onPort_rowTimesOut (hf : Natural F) (row : RowRecord) :
    rowTimesOut row (s.onPort p F u) = (rowTimesOut row s).onPort p F u := by
  simp [rowTimesOut, hf]

@[simp] theorem onPort_rowTimeoutIfMet (hf : Natural F) :
    rowTimeoutIfMet (s.onPort p F u) = (rowTimeoutIfMet s).onPort p F u := by
  simp only [rowTimeoutIfMet, onPort_rows, onPort_drawUm, onPort_rowTimesOut s p F u hf]
  cases s.rows with
  | nil => rfl
  | cons row rest => simp only []; split_ifs <;> rfl

@[simp] theorem onPort_rowKnotted (hf : Natural F) (row : RowRecord) (tied : JunctionSet) :
    rowKnotted row tied (s.onPort p F u) = (rowKnotted row tied s).onPort p F u := by
  simp [rowKnotted, hf]

@[simp] theorem onPort_openPanel (hf : Natural F) :
    openPanel (s.onPort p F u) = (openPanel s).onPort p F u := by
  have key : ∀ x : Panel, rowFallsDueIfMet { s.onPort p F u with panel := x }
      = (rowFallsDueIfMet { s with panel := x }).onPort p F u :=
    fun x => onPort_rowFallsDueIfMet { s with panel := x } p F u hf
  exact key _

@[simp] theorem onPort_closePanel (hf : Natural F) :
    closePanel (s.onPort p F u) = (closePanel s).onPort p F u := by
  simp only [closePanel]
  (repeat' split) <;> simp_all

@[simp] theorem onPort_cutLane (isEnd : Bool) (l : LaneNo) :
    cutLane isEnd l (s.onPort p F u) = (cutLane isEnd l s).onPort p F u := by
  simp [cutLane]

@[simp] theorem onPort_queuePackage (hf : Natural F) (pkg : Package) (lanes : LaneSet) :
    queuePackage pkg lanes (s.onPort p F u) = (queuePackage pkg lanes s).onPort p F u := by
  simp [queuePackage, hf]

@[simp] theorem onPort_laneSwitch (hf : Natural F) (isEnd : Bool) (l : LaneNo) :
    laneSwitch isEnd l (s.onPort p F u) = (laneSwitch isEnd l s).onPort p F u := by
  simp only [laneSwitch]
  (repeat' split) <;> simp_all

@[simp] theorem onPort_lineSwitch (hf : Natural F) (slot : SlotNo) :
    lineSwitch slot (s.onPort p F u) = (lineSwitch slot s).onPort p F u := by
  have key : ∀ x : Line, forLanes (lanesInUse s) (fun l t => switchLane l slot t) { s.onPort p F u with line := x }
      = (forLanes (lanesInUse s) (fun l t => switchLane l slot t) { s with line := x }).onPort p F u :=
    fun x => onPort_forLanes { s with line := x } p F u _ (fun l t => onPort_switchLane t p F u hf l slot) _
  simp only [lineSwitch, onPort_lanesInUse, onPort_line]
  rw [key, onPort_raise _ p F u hf]

@[simp] theorem onPort_pendingLineSwitch (hf : Natural F) :
    pendingLineSwitch (s.onPort p F u) = (pendingLineSwitch s).onPort p F u := by
  simp only [pendingLineSwitch]
  (repeat' split) <;> simp_all

@[simp] theorem onPort_removeEntry (fits : CutEntry → Bool) :
    removeEntry fits (s.onPort p F u) = (removeEntry fits s).onPort p F u := by
  simp [removeEntry]

@[simp] theorem onPort_afterCoilCut (hf : Natural F) (isEnd : Bool) (l : LaneNo) :
    afterCoilCut isEnd l (s.onPort p F u) = (afterCoilCut isEnd l s).onPort p F u := by
  simp only [afterCoilCut]
  (repeat' split) <;> simp_all

@[simp] theorem onPort_acceptCoil (hf : Natural F) (l : LaneNo) (reason : CutReason) :
    acceptCoil l reason (s.onPort p F u) = (acceptCoil l reason s).onPort p F u := by
  simp [acceptCoil, hf]

@[simp] theorem onPort_acceptPanel (hf : Natural F) (lanes : LaneSet) :
    acceptPanel lanes (s.onPort p F u) = (acceptPanel lanes s).onPort p F u := by
  have key := fun ls : List LaneNo => onPort_forLanes s p F u (cutLane false) (fun l t => onPort_cutLane t p F u false l) ls
  simp only [acceptPanel, onPort_laneCut, onPort_packageOf, onPort_panel, onPort_lineRecipe, onPort_line, key,
    onPort_removeEntry, onPort_queuePackage _ p F u hf, onPort_pendingLineSwitch _ p F u hf,
    onPort_closePanel _ p F u hf, onPort_joinDeferred _ p F u hf]
  rfl

@[simp] theorem onPort_acceptCut (hf : Natural F) (w : CutWhat) :
    acceptCut w (s.onPort p F u) = (acceptCut w s).onPort p F u := by
  simp only [acceptCut]
  (repeat' split) <;> simp_all

@[simp] theorem onPort_threadingEnd (hf : Natural F) (l : LaneNo) :
    threadingEnd l (s.onPort p F u) = (threadingEnd l s).onPort p F u := by
  simp only [threadingEnd]
  (repeat' split) <;> simp_all

@[simp] theorem onPort_threadingEndIfMet (hf : Natural F) (l : LaneNo) :
    threadingEndIfMet l (s.onPort p F u) = (threadingEndIfMet l s).onPort p F u := by
  simp only [threadingEndIfMet]
  (repeat' split) <;> simp_all

@[simp] theorem onPort_startLane (hf : Natural F) (l : LaneNo) :
    startLane l (s.onPort p F u) = (startLane l s).onPort p F u := by
  simp [startLane, hf]

@[simp] theorem onPort_leaveForStop (l : LaneNo) :
    leaveForStop l (s.onPort p F u) = (leaveForStop l s).onPort p F u := by
  simp only [leaveForStop]
  (repeat' split) <;> simp_all

@[simp] theorem onPort_stopLane (hf : Natural F) (l : LaneNo) :
    stopLane l (s.onPort p F u) = (stopLane l s).onPort p F u := by
  simp [stopLane, hf]

@[simp] theorem onPort_clearLane (hf : Natural F) (l : LaneNo) :
    clearLane l (s.onPort p F u) = (clearLane l s).onPort p F u := by
  simp [clearLane, hf]

@[simp] theorem onPort_changeMode (m : LineMode) :
    changeMode m (s.onPort p F u) = (changeMode m s).onPort p F u := by
  simp [changeMode]
  rfl

@[simp] theorem onPort_unmapPosition (k : Option PosNo) :
    unmapPosition k (s.onPort p F u) = (unmapPosition k s).onPort p F u := by
  simp only [unmapPosition]
  (repeat' split) <;> simp_all

@[simp] theorem onPort_mapPosition (k : Option PosNo) (l : LaneNo) :
    mapPosition k l (s.onPort p F u) = (mapPosition k l s).onPort p F u := by
  simp only [mapPosition]
  (repeat' split) <;> simp_all

@[simp] theorem onPort_mapLane (l : LaneNo) (target : Option PosNo) :
    mapLane l target (s.onPort p F u) = (mapLane l target s).onPort p F u := by
  simp [mapLane]

@[simp] theorem onPort_laneWatchers (hf : Natural F) (l : LaneNo) :
    laneWatchers l (s.onPort p F u) = (laneWatchers l s).onPort p F u := by
  simp [laneWatchers, hf]

@[simp] theorem onPort_tallyLimit (hf : Natural F) (l : LaneNo) :
    tallyLimit l (s.onPort p F u) = (tallyLimit l s).onPort p F u := by
  simp only [tallyLimit]
  (repeat' split) <;> simp_all

@[simp] theorem onPort_countPastCeiling (hf : Natural F) (l : LaneNo) :
    countPastCeiling l (s.onPort p F u) = (countPastCeiling l s).onPort p F u := by
  simp only [countPastCeiling]
  (repeat' split) <;> simp_all

@[simp] theorem onPort_laneForward (hf : Natural F) (l : LaneNo) (k : Nat) :
    laneForward l k (s.onPort p F u) = (laneForward l k s).onPort p F u := by
  simp only [laneForward]
  (repeat' split) <;> simp_all

@[simp] theorem onPort_laneReverse (hf : Natural F) (l : LaneNo) (k : Nat) :
    laneReverse l k (s.onPort p F u) = (laneReverse l k s).onPort p F u := by
  simp only [laneReverse]
  (repeat' split) <;> simp_all

@[simp] theorem onPort_laneCount (hf : Natural F) (d : Direction) (kf : Nat) (l : LaneNo) :
    laneCount d kf l (s.onPort p F u) = (laneCount d kf l s).onPort p F u := by
  simp only [laneCount]
  (repeat' split) <;> simp_all

@[simp] theorem onPort_tallyLimitIfMet (hf : Natural F) (l : LaneNo) :
    tallyLimitIfMet l (s.onPort p F u) = (tallyLimitIfMet l s).onPort p F u := by
  simp only [tallyLimitIfMet, onPort_lane, onPort_position, onPort_countPastCeiling s p F u hf]
  cases (s.lane l).position with
  | none => rfl
  | some k => simp only []; split_ifs <;> first | rfl | contradiction

@[simp] theorem onPort_drawRowEvents (hf : Natural F) :
    drawRowEvents (s.onPort p F u) = (drawRowEvents s).onPort p F u := by
  simp only [drawRowEvents]
  (repeat' split) <;> simp_all

@[simp] theorem onPort_drawWatchers (hf : Natural F) :
    drawWatchers (s.onPort p F u) = (drawWatchers s).onPort p F u := by
  simp [drawWatchers, hf]

@[simp] theorem onPort_assignAtOnce (hf : Natural F) (t : AssignTarget) (slot : SlotNo) :
    assignAtOnce t slot (s.onPort p F u) = (assignAtOnce t slot s).onPort p F u := by
  simp only [assignAtOnce]
  (repeat' split) <;> simp_all

@[simp] theorem onPort_assignAtCut (t : AssignTarget) (slot : SlotNo) :
    assignAtCut t slot (s.onPort p F u) = (assignAtCut t slot s).onPort p F u := by
  simp only [assignAtCut]
  (repeat' split) <;> simp_all <;> rfl

@[simp] theorem onPort_serveCalibrate (bs : List Byte) :
    serveCalibrate bs (s.onPort p F u) = (serveCalibrate bs s).onPort p F u := by
  simp only [serveCalibrate]
  (repeat' split) <;> simp_all

@[simp] theorem onPort_serveSpliceBegin (hf : Natural F) (bs : List Byte) :
    serveSpliceBegin bs (s.onPort p F u) = (serveSpliceBegin bs s).onPort p F u := by
  refine onPort_serveLane s p F u _ (fun l => ?_) bs
  simp only [onPort_lane]
  (repeat' split) <;> simp_all

@[simp] theorem onPort_serveSpliceEnd (hf : Natural F) (bs : List Byte) :
    serveSpliceEnd bs (s.onPort p F u) = (serveSpliceEnd bs s).onPort p F u := by
  refine onPort_serveLane s p F u _ (fun l => ?_) bs
  simp only [onPort_lane]
  (repeat' split) <;> simp_all

@[simp] theorem onPort_serveKnotDone (hf : Natural F) (bs : List Byte) :
    serveKnotDone bs (s.onPort p F u) = (serveKnotDone bs s).onPort p F u := by
  simp only [serveKnotDone, onPort_rows, onPort_line, onPort_panelOpen, onPort_panel, onPort_tiedDrops,
    onPort_tiedSet, onPort_rowKnotted s p F u hf]
  cases s.rows with
  | nil => simp only []; split_ifs <;> first | rfl | simp_all
  | cons row rest => simp only []; split_ifs <;> first | rfl | simp_all

@[simp] theorem onPort_servePanelStart (hf : Natural F) :
    servePanelStart (s.onPort p F u) = (servePanelStart s).onPort p F u := by
  simp only [servePanelStart]
  (repeat' split) <;> simp_all

@[simp] theorem onPort_servePanelHalt :
    servePanelHalt (s.onPort p F u) = (servePanelHalt s).onPort p F u := by
  simp only [servePanelHalt]
  (repeat' split) <;> simp_all

@[simp] theorem onPort_serveCutDone (hf : Natural F) (bs : List Byte) :
    serveCutDone bs (s.onPort p F u) = (serveCutDone bs s).onPort p F u := by
  simp only [serveCutDone]
  (repeat' split) <;> simp_all

@[simp] theorem onPort_serveReleasePackage (hf : Natural F) :
    serveReleasePackage (s.onPort p F u) = (serveReleasePackage s).onPort p F u := by
  simp only [serveReleasePackage]
  (repeat' split) <;> simp_all

@[simp] theorem onPort_serveStartLane (hf : Natural F) (bs : List Byte) :
    serveStartLane bs (s.onPort p F u) = (serveStartLane bs s).onPort p F u := by
  refine onPort_serveLane s p F u _ (fun l => ?_) bs
  simp only [onPort_lane, onPort_onServicePosition, onPort_line, onPort_netSet, onPort_startRecipe,
    onPort_startLane s p F u hf]
  split_ifs <;> rfl

@[simp] theorem onPort_serveStopLane (hf : Natural F) (bs : List Byte) :
    serveStopLane bs (s.onPort p F u) = (serveStopLane bs s).onPort p F u := by
  refine onPort_serveLane s p F u _ (fun l => ?_) bs
  simp only [onPort_lane]
  (repeat' split) <;> simp_all

@[simp] theorem onPort_serveClearLane (hf : Natural F) (bs : List Byte) :
    serveClearLane bs (s.onPort p F u) = (serveClearLane bs s).onPort p F u := by
  refine onPort_serveLane s p F u _ (fun l => ?_) bs
  simp only [onPort_lane]
  (repeat' split) <;> simp_all

@[simp] theorem onPort_serveSetMode (bs : List Byte) :
    serveSetMode bs (s.onPort p F u) = (serveSetMode bs s).onPort p F u := by
  simp only [serveSetMode]
  (repeat' split) <;> simp_all

@[simp] theorem onPort_serveMapLane (bs : List Byte) :
    serveMapLane bs (s.onPort p F u) = (serveMapLane bs s).onPort p F u := by
  simp only [serveMapLane]
  (repeat' split) <;> simp_all

@[simp] theorem onPort_servePositionField (k : PosNo) (field : PositionField) (bs : List Byte) :
    servePositionField k field bs (s.onPort p F u) = (servePositionField k field bs s).onPort p F u := by
  simp only [servePositionField]
  (repeat' split) <;> simp_all <;> rfl

@[simp] theorem onPort_serveClearCounts (bs : List Byte) :
    serveClearCounts bs (s.onPort p F u) = (serveClearCounts bs s).onPort p F u := congrArg accept (onPort_forLanes s p F u _ (fun l t => onPort_modLane t p F u l _) _)

@[simp] theorem onPort_serveSetGeometry (bs : List Byte) :
    serveSetGeometry bs (s.onPort p F u) = (serveSetGeometry bs s).onPort p F u := by
  simp only [serveSetGeometry]
  (repeat' split) <;> simp_all <;> rfl

@[simp] theorem onPort_serveSetFactor (bs : List Byte) :
    serveSetFactor bs (s.onPort p F u) = (serveSetFactor bs s).onPort p F u := by
  simp only [serveSetFactor]
  (repeat' split) <;> simp_all <;> rfl

@[simp] theorem onPort_serveAssignRecipe (hf : Natural F) (bs : List Byte) :
    serveAssignRecipe bs (s.onPort p F u) = (serveAssignRecipe bs s).onPort p F u := by
  simp only [serveAssignRecipe]
  (repeat' split) <;> simp_all

@[simp] theorem onPort_serveAckStop (hf : Natural F) (bs : List Byte) :
    serveAckStop bs (s.onPort p F u) = (serveAckStop bs s).onPort p F u := by
  have key : ∀ ls, State.raise .stop ls { s.onPort p F u with stops := ackedStops (byteAt bs 0) s }
      = (State.raise .stop ls { s with stops := ackedStops (byteAt bs 0) s }).onPort p F u :=
    fun ls => onPort_raise { s with stops := ackedStops (byteAt bs 0) s } p F u hf .stop ls
  simp only [serveAckStop, onPort_ackedStops, onPort_stops, key]
  split_ifs <;> rfl

end OnPort

end Sys2Proof.Machine
end

