-- ==== Sys2Proof/Laws/Commands.lean ====
section
/-! SUPPORT. What a whole command comes to at a port where no step waits and no byte is held: its service on the
records as they stand, and its answer on the port. One lemma per command. -/

namespace Sys2Proof.Machine

variable {s : State} {p : PortNo}

theorem natural_asked (c : Command) (bs : List Byte) : Natural (Port.asked c bs) := fun _ _ _ => rfl

@[simp] theorem State.answered_port_self (s : State) (p : PortNo) (c : Command) (r : Result) (cl : Bool) :
    (s.answered p c r cl).port p = (s.port p).answered c r cl :=
  State.modPort_port_self s p _

@[simp] theorem State.streamed_port_self (s : State) (p : PortNo) (c : Command) (r : Result) (body : List Byte) :
    (s.streamed p c r body).port p = (s.port p).streamed c r body :=
  State.modPort_port_self s p _

/-- An action command: its service on the records, and the answer on the port. -/
theorem giveAction_ready (c : Command) (hc : c ≠ .readStatus) (bs : List Byte) (serve : State → Served)
    (hserve : ∀ t, serveCommand p c bs t = finishAction p (serve t))
    (hnat : serve (s.onPort p (Port.asked c bs) p) = (serve s).onPort p (Port.asked c bs) p)
    (hheld : ((serve s).state.port p).held = (s.port p).held)
    (hs : Quiet s) (hh : (s.port p).held = []) (hr : c.permits (s.port p).role = true)
    (hb : bs.length = c.firstBytes) :
    giveCommand p c bs s = (serve s).state.answered p c (serve s).result (serve s).clamped := by
  have h1 : serveCommand p c bs (s.asked p c bs)
      = (serve s).state.answered p c (serve s).result (serve s).clamped := by
    rw [hserve, show s.asked p c bs = s.onPort p (Port.asked c bs) p from rfl,
      hnat]
    simp [finishAction, Served.onPort, State.onPort, State.answered, State.modPort, Port.asked, Port.opened,
      Port.close, Port.answered]
  rw [giveCommand_ready c hc bs hs hr hb, h1, drainHeld_nil]
  simp [Port.answered, hheld, hh]

/-- A read command other than READ_STATUS and READ_NOTICES: its response, and nothing else. -/
theorem giveRead_ready (c : Command) (hc : c ≠ .readStatus) (bs : List Byte) (read : State → ReadOut)
    (hserve : ∀ t, serveCommand p c bs t = finishRead p (read t))
    (hnat : ∀ t F u, (read (t.onPort p F u)).result = (read t).result ∧ (read (t.onPort p F u)).body = (read t).body)
    (hst : ∀ t, (read t).state = t)
    (hs : Quiet s) (hh : (s.port p).held = []) (hr : c.permits (s.port p).role = true)
    (hb : bs.length = c.firstBytes) :
    giveCommand p c bs s = s.streamed p c (read s).result (read s).body := by
  have h1 : serveCommand p c bs (s.asked p c bs) = s.streamed p c (read s).result (read s).body := by
    rw [hserve, show s.asked p c bs = s.onPort p (Port.asked c bs) p from rfl]
    simp only [finishRead, hst, (hnat s (Port.asked c bs) p).1, (hnat s (Port.asked c bs) p).2]
    simp [State.onPort, State.streamed, State.modPort, Port.asked, Port.opened, Port.close, Port.stream,
      Port.streamed]
  rw [giveCommand_ready c hc bs hs hr hb, h1, drainHeld_nil]
  simp [Port.streamed, hh]

/-- A command that the port's role does not permit is answered with ROLE (R161). -/
theorem giveCommand_refused (c : Command) (bs : List Byte) (hs : Quiet s)
    (hr : c.permits (s.port p).role = false) :
    giveCommand p c bs s = s.modPort p (Port.opened c.code .role .discarding) := by
  have hw : (s.port p).awaits c bs = false := by simp [Port.awaits, hs p]
  rw [giveCommand, hw]
  simp only [Bool.false_eq_true, if_false]
  have h1 : arrive p ⟨true, c.code⟩ s = s.modPort p (Port.opened c.code .role .discarding) := by
    rw [arrive_idle (hs p)]
    exact State.modPort_congr _ _ _ _ (by simp [Port.takeByte, takeCommand_refused c _ hr])
  have h2 : ∀ (xs : List Byte) (t : State), (t.port p).phase = .discarding → arriveData p xs t = t := by
    intro xs
    induction xs with
    | nil => intro t _; rfl
    | cons x xs ih =>
      intro t ht
      have : arrive p ⟨false, x⟩ t = t := by
        rw [arrive_idle (by simp [Port.isWaiting, ht])]
        exact State.modPort_id _ _ _ (by simp [Port.takeByte, Port.takeData, ht])
      show arriveData p xs (arrive p ⟨false, x⟩ t) = t
      rw [this, ih t ht]
  rw [h1, h2 _ _ (by simp [Port.opened])]
  simp [serveWaiting, Port.isWaiting, Port.opened]

theorem exec_startLane_ready (lane : Byte) (h : Ready p .twist s) :
    exec (.startLane p lane) s
      = .next ((serveStartLane [lane] s).state.answered p .startLane (serveStartLane [lane] s).result (serveStartLane [lane] s).clamped) :=
  congrArg Host.Outcome.next (giveAction_ready .startLane (by decide) [lane] (serveStartLane [lane])
    (fun _ => rfl) (by simp [natural_asked]) (held_of_fixed (by simp) p) h.1 h.2.1 (by rw [h.2.2]; rfl) rfl)

theorem exec_stopLane_ready (lane : Byte) (h : Ready p .twist s) :
    exec (.stopLane p lane) s
      = .next ((serveStopLane [lane] s).state.answered p .stopLane (serveStopLane [lane] s).result (serveStopLane [lane] s).clamped) :=
  congrArg Host.Outcome.next (giveAction_ready .stopLane (by decide) [lane] (serveStopLane [lane])
    (fun _ => rfl) (by simp [natural_asked]) (held_of_fixed (by simp) p) h.1 h.2.1 (by rw [h.2.2]; rfl) rfl)

theorem exec_spliceBegin_ready (lane : Byte) (h : Ready p .twist s) :
    exec (.spliceBegin p lane) s
      = .next ((serveSpliceBegin [lane] s).state.answered p .spliceBegin (serveSpliceBegin [lane] s).result (serveSpliceBegin [lane] s).clamped) :=
  congrArg Host.Outcome.next (giveAction_ready .spliceBegin (by decide) [lane] (serveSpliceBegin [lane])
    (fun _ => rfl) (by simp [natural_asked]) (held_of_fixed (by simp) p) h.1 h.2.1 (by rw [h.2.2]; rfl) rfl)

theorem exec_spliceEnd_ready (lane : Byte) (h : Ready p .twist s) :
    exec (.spliceEnd p lane) s
      = .next ((serveSpliceEnd [lane] s).state.answered p .spliceEnd (serveSpliceEnd [lane] s).result (serveSpliceEnd [lane] s).clamped) :=
  congrArg Host.Outcome.next (giveAction_ready .spliceEnd (by decide) [lane] (serveSpliceEnd [lane])
    (fun _ => rfl) (by simp [natural_asked]) (held_of_fixed (by simp) p) h.1 h.2.1 (by rw [h.2.2]; rfl) rfl)

theorem exec_panelStart_ready (h : Ready p .knot s) :
    exec (.panelStart p) s
      = .next ((servePanelStart s).state.answered p .panelStart (servePanelStart s).result (servePanelStart s).clamped) :=
  congrArg Host.Outcome.next (giveAction_ready .panelStart (by decide) [] (servePanelStart)
    (fun _ => rfl) (by simp [natural_asked]) (held_of_fixed (by simp) p) h.1 h.2.1 (by rw [h.2.2]; rfl) rfl)

theorem exec_panelHalt_ready (h : Ready p .knot s) :
    exec (.panelHalt p) s
      = .next ((servePanelHalt s).state.answered p .panelHalt (servePanelHalt s).result (servePanelHalt s).clamped) :=
  congrArg Host.Outcome.next (giveAction_ready .panelHalt (by decide) [] (servePanelHalt)
    (fun _ => rfl) (by simp [natural_asked]) (held_of_fixed (by simp) p) h.1 h.2.1 (by rw [h.2.2]; rfl) rfl)

theorem exec_knotDone_ready (row : BitVec 16) (tied : Byte) (h : Ready p .knot s) :
    exec (.knotDone p row tied) s
      = .next ((serveKnotDone (beBytes 2 row.toNat ++ [tied]) s).state.answered p .knotDone (serveKnotDone (beBytes 2 row.toNat ++ [tied]) s).result (serveKnotDone (beBytes 2 row.toNat ++ [tied]) s).clamped) :=
  congrArg Host.Outcome.next (giveAction_ready .knotDone (by decide) (beBytes 2 row.toNat ++ [tied]) (serveKnotDone (beBytes 2 row.toNat ++ [tied]))
    (fun _ => rfl) (by simp [natural_asked]) (held_of_fixed (by simp) p) h.1 h.2.1 (by rw [h.2.2]; rfl) rfl)

theorem exec_cutDone_ready (target : Byte) (h : Ready p .pack s) :
    exec (.cutDone p target) s
      = .next ((serveCutDone [target] s).state.answered p .cutDone (serveCutDone [target] s).result (serveCutDone [target] s).clamped) :=
  congrArg Host.Outcome.next (giveAction_ready .cutDone (by decide) [target] (serveCutDone [target])
    (fun _ => rfl) (by simp [natural_asked]) (held_of_fixed (by simp) p) h.1 h.2.1 (by rw [h.2.2]; rfl) rfl)

theorem exec_releasePackage_ready (h : Ready p .pack s) :
    exec (.releasePackage p) s
      = .next ((serveReleasePackage s).state.answered p .releasePackage (serveReleasePackage s).result (serveReleasePackage s).clamped) :=
  congrArg Host.Outcome.next (giveAction_ready .releasePackage (by decide) [] (serveReleasePackage)
    (fun _ => rfl) (by simp [natural_asked]) (held_of_fixed (by simp) p) h.1 h.2.1 (by rw [h.2.2]; rfl) rfl)

theorem exec_setMode_ready (mode : Byte) (h : Ready p .supervise s) :
    exec (.setMode p mode) s
      = .next ((serveSetMode [mode] s).state.answered p .setMode (serveSetMode [mode] s).result (serveSetMode [mode] s).clamped) :=
  congrArg Host.Outcome.next (giveAction_ready .setMode (by decide) [mode] (serveSetMode [mode])
    (fun _ => rfl) (by simp [natural_asked]) (held_of_fixed (by simp) p) h.1 h.2.1 (by rw [h.2.2]; rfl) rfl)

theorem exec_setGeometry_ready (dKnot dCut kDraw : BitVec 24) (h : Ready p .supervise s) :
    exec (.setGeometry p dKnot dCut kDraw) s
      = .next ((serveSetGeometry (beBytes 3 dKnot.toNat ++ beBytes 3 dCut.toNat ++ beBytes 3 kDraw.toNat) s).state.answered p .setGeometry (serveSetGeometry (beBytes 3 dKnot.toNat ++ beBytes 3 dCut.toNat ++ beBytes 3 kDraw.toNat) s).result (serveSetGeometry (beBytes 3 dKnot.toNat ++ beBytes 3 dCut.toNat ++ beBytes 3 kDraw.toNat) s).clamped) :=
  congrArg Host.Outcome.next (giveAction_ready .setGeometry (by decide) (beBytes 3 dKnot.toNat ++ beBytes 3 dCut.toNat ++ beBytes 3 kDraw.toNat) (serveSetGeometry (beBytes 3 dKnot.toNat ++ beBytes 3 dCut.toNat ++ beBytes 3 kDraw.toNat))
    (fun _ => rfl) (by simp [natural_asked]) (held_of_fixed (by simp) p) h.1 h.2.1 (by rw [h.2.2]; rfl) rfl)

theorem exec_setFactor_ready (position : Byte) (k : BitVec 24) (lock : Byte) (h : Ready p .supervise s) :
    exec (.setFactor p position k lock) s
      = .next ((serveSetFactor ([position] ++ beBytes 3 k.toNat ++ [lock]) s).state.answered p .setFactor (serveSetFactor ([position] ++ beBytes 3 k.toNat ++ [lock]) s).result (serveSetFactor ([position] ++ beBytes 3 k.toNat ++ [lock]) s).clamped) :=
  congrArg Host.Outcome.next (giveAction_ready .setFactor (by decide) ([position] ++ beBytes 3 k.toNat ++ [lock]) (serveSetFactor ([position] ++ beBytes 3 k.toNat ++ [lock]))
    (fun _ => rfl) (by simp [natural_asked]) (held_of_fixed (by simp) p) h.1 h.2.1 (by rw [h.2.2]; rfl) rfl)

theorem exec_mapLane_ready (lane target : Byte) (h : Ready p .supervise s) :
    exec (.mapLane p lane target) s
      = .next ((serveMapLane [lane, target] s).state.answered p .mapLane (serveMapLane [lane, target] s).result (serveMapLane [lane, target] s).clamped) :=
  congrArg Host.Outcome.next (giveAction_ready .mapLane (by decide) [lane, target] (serveMapLane [lane, target])
    (fun _ => rfl) (by simp [natural_asked]) (held_of_fixed (by simp) p) h.1 h.2.1 (by rw [h.2.2]; rfl) rfl)

theorem exec_assignRecipe_ready (target slot timing : Byte) (h : Ready p .supervise s) :
    exec (.assignRecipe p target slot timing) s
      = .next ((serveAssignRecipe [target, slot, timing] s).state.answered p .assignRecipe (serveAssignRecipe [target, slot, timing] s).result (serveAssignRecipe [target, slot, timing] s).clamped) :=
  congrArg Host.Outcome.next (giveAction_ready .assignRecipe (by decide) [target, slot, timing] (serveAssignRecipe [target, slot, timing])
    (fun _ => rfl) (by simp [natural_asked]) (held_of_fixed (by simp) p) h.1 h.2.1 (by rw [h.2.2]; rfl) rfl)

theorem exec_calibrate_ready (position n tol : Byte) (h : Ready p .supervise s) :
    exec (.calibrate p position n tol) s
      = .next ((serveCalibrate [position, n, tol] s).state.answered p .calibrate (serveCalibrate [position, n, tol] s).result (serveCalibrate [position, n, tol] s).clamped) :=
  congrArg Host.Outcome.next (giveAction_ready .calibrate (by decide) [position, n, tol] (serveCalibrate [position, n, tol])
    (fun _ => rfl) (by simp [natural_asked]) (held_of_fixed (by simp) p) h.1 h.2.1 (by rw [h.2.2]; rfl) rfl)

theorem exec_clearLane_ready (lane : Byte) (h : Ready p .supervise s) :
    exec (.clearLane p lane) s
      = .next ((serveClearLane [lane] s).state.answered p .clearLane (serveClearLane [lane] s).result (serveClearLane [lane] s).clamped) :=
  congrArg Host.Outcome.next (giveAction_ready .clearLane (by decide) [lane] (serveClearLane [lane])
    (fun _ => rfl) (by simp [natural_asked]) (held_of_fixed (by simp) p) h.1 h.2.1 (by rw [h.2.2]; rfl) rfl)

theorem exec_ackStop_ready (reasons : Byte) (h : Ready p .supervise s) :
    exec (.ackStop p reasons) s
      = .next ((serveAckStop [reasons] s).state.answered p .ackStop (serveAckStop [reasons] s).result (serveAckStop [reasons] s).clamped) :=
  congrArg Host.Outcome.next (giveAction_ready .ackStop (by decide) [reasons] (serveAckStop [reasons])
    (fun _ => rfl) (by simp [natural_asked]) (held_of_fixed (by simp) p) h.1 h.2.1 (by rw [h.2.2]; rfl) rfl)

theorem exec_clearCounts_ready (lanes : Byte) (h : Ready p .supervise s) :
    exec (.clearCounts p lanes) s
      = .next ((serveClearCounts [lanes] s).state.answered p .clearCounts (serveClearCounts [lanes] s).result (serveClearCounts [lanes] s).clamped) :=
  congrArg Host.Outcome.next (giveAction_ready .clearCounts (by decide) [lanes] (serveClearCounts [lanes])
    (fun _ => rfl) (by simp [natural_asked]) (held_of_fixed (by simp) p) h.1 h.2.1 (by rw [h.2.2]; rfl) rfl)

theorem exec_forceLine_ready (line setting : Byte) (h : Ready p .supervise s) :
    exec (.forceLine p line setting) s
      = .next ((serveForceLine [line, setting] s).state.answered p .forceLine
          (serveForceLine [line, setting] s).result (serveForceLine [line, setting] s).clamped) :=
  congrArg Host.Outcome.next (giveAction_ready .forceLine (by decide) [line, setting]
    (serveForceLine [line, setting]) (fun _ => rfl)
    (by simp only [serveForceLine, onPort_forcing]; (repeat' split) <;> rfl)
    (by simp only [serveForceLine]; (repeat' split) <;> rfl) h.1 h.2.1 (by rw [h.2.2]; rfl) rfl)

theorem exec_setInterest_ready (mask : BitVec 16) (hs : Quiet s) (hh : (s.port p).held = []) :
    exec (.setInterest p mask) s
      = .next ((serveSetInterest p (beBytes 2 mask.toNat) s).state.answered p .setInterest
          (serveSetInterest p (beBytes 2 mask.toNat) s).result
          (serveSetInterest p (beBytes 2 mask.toNat) s).clamped) :=
  congrArg Host.Outcome.next (giveAction_ready .setInterest (by decide) (beBytes 2 mask.toNat)
    (serveSetInterest p (beBytes 2 mask.toNat)) (fun _ => rfl)
    (by simp [serveSetInterest, Served.onPort, State.onPort, State.modPort]; rfl)
    (by simp [serveSetInterest]) hs hh rfl rfl)

theorem exec_readLane_ready (lane : Byte) (hs : Quiet s) (hh : (s.port p).held = []) :
    exec (.readLane p lane) s = .next (s.streamed p .readLane (readLane [lane] s).result (readLane [lane] s).body) :=
  congrArg Host.Outcome.next (giveRead_ready .readLane (by decide) [lane] (readLane [lane])
    (fun _ => rfl) (fun t F u => by constructor <;> (unfold readLane; (repeat' split) <;> rfl))
    (fun t => by simp only [readLane]; (repeat' split) <;> rfl) hs hh rfl rfl)

theorem exec_readLine_ready (hs : Quiet s) (hh : (s.port p).held = []) :
    exec (.readLine p) s = .next (s.streamed p .readLine (readLine s).result (readLine s).body) :=
  congrArg Host.Outcome.next (giveRead_ready .readLine (by decide) [] (readLine)
    (fun _ => rfl) (fun _ _ _ => ⟨rfl, rfl⟩)
    (fun _ => rfl) hs hh rfl rfl)

theorem exec_readMarks_ready (lane first : Byte) (hs : Quiet s) (hh : (s.port p).held = []) :
    exec (.readMarks p lane first) s = .next (s.streamed p .readMarks (readMarks [lane, first] s).result (readMarks [lane, first] s).body) :=
  congrArg Host.Outcome.next (giveRead_ready .readMarks (by decide) [lane, first] (readMarks [lane, first])
    (fun _ => rfl) (fun t F u => by constructor <;> (simp only [readMarks, onPort_markList]; (repeat' split) <;> rfl))
    (fun t => by simp only [readMarks]; (repeat' split) <;> rfl) hs hh rfl rfl)

theorem exec_readTrim_ready (lane : Byte) (h : Ready p .twist s) :
    exec (.readTrim p lane) s = .next (s.streamed p .readTrim (readTrim [lane] s).result (readTrim [lane] s).body) :=
  congrArg Host.Outcome.next (giveRead_ready .readTrim (by decide) [lane] (readTrim [lane])
    (fun _ => rfl) (fun t F u => by constructor <;> (unfold readTrim; (repeat' split) <;> rfl))
    (fun t => by simp only [readTrim]; (repeat' split) <;> rfl) h.1 h.2.1 (by rw [h.2.2]; rfl) rfl)

theorem exec_readRow_ready (h : Ready p .knot s) :
    exec (.readRow p) s = .next (s.streamed p .readRow (readRow s).result (readRow s).body) :=
  congrArg Host.Outcome.next (giveRead_ready .readRow (by decide) [] (readRow)
    (fun _ => rfl) (fun _ _ _ => ⟨rfl, rfl⟩)
    (fun _ => rfl) h.1 h.2.1 (by rw [h.2.2]; rfl) rfl)

theorem exec_readCuts_ready (h : Ready p .pack s) :
    exec (.readCuts p) s = .next (s.streamed p .readCuts (readCuts s).result (readCuts s).body) :=
  congrArg Host.Outcome.next (giveRead_ready .readCuts (by decide) [] (readCuts)
    (fun _ => rfl) (fun _ _ _ => ⟨rfl, rfl⟩)
    (fun _ => rfl) h.1 h.2.1 (by rw [h.2.2]; rfl) rfl)

theorem exec_readCal_ready (position : Byte) (h : Ready p .supervise s) :
    exec (.readCal p position) s = .next (s.streamed p .readCal (readCal [position] s).result (readCal [position] s).body) :=
  congrArg Host.Outcome.next (giveRead_ready .readCal (by decide) [position] (readCal [position])
    (fun _ => rfl) (fun t F u => by constructor <;> (unfold readCal; (repeat' split) <;> rfl))
    (fun t => by simp only [readCal]; (repeat' split) <;> rfl) h.1 h.2.1 (by rw [h.2.2]; rfl) rfl)

theorem exec_readPackage_ready (hs : Quiet s) (hh : (s.port p).held = [])
    (hr : Command.readPackage.permits (s.port p).role = true) :
    exec (.readPackage p) s = .next (s.streamed p .readPackage (readPackage s).result (readPackage s).body) :=
  congrArg Host.Outcome.next (giveRead_ready .readPackage (by decide) [] readPackage (fun _ => rfl)
    (fun t F u => by constructor <;> (simp only [readPackage, onPort_cuts]; split <;> rfl))
    (fun t => by simp only [readPackage]; split <;> rfl) hs hh hr rfl)

theorem exec_readNotices_ready (hs : Quiet s) (hh : (s.port p).held = []) :
    exec (.readNotices p) s
      = .next ((s.modPort p fun P => { P with notices := NoticeSet.empty }).streamed p .readNotices .ok
          (readNotices p s).body) := by
  show Host.Outcome.next (giveCommand p .readNotices [] s) = _
  rw [giveCommand_ready .readNotices (by decide) [] hs rfl rfl]
  have : serveCommand p .readNotices [] (s.asked p .readNotices [])
      = (s.modPort p fun P => { P with notices := NoticeSet.empty }).streamed p .readNotices .ok
          (readNotices p s).body := by
    simp [serveCommand, readNotices, readOk, finishRead, State.asked, State.streamed, State.modPort, State.port,
      Port.asked, Port.opened, Port.close, Port.stream, Port.streamed]
  rw [this, drainHeld_nil]
  simp [Port.streamed, hh]

/-- The header of a field-wise command that is accepted (R6, R98, R100). -/
theorem giveHeader_ready (c : Command) (hc : c ≠ .readStatus) (bs : List Byte) (ctx : FieldContext)
    (hserve : ∀ t, serveCommand p c bs t = finishHeader p (some ctx) t)
    (hs : Quiet s) (hh : (s.port p).held = []) (hr : c.permits (s.port p).role = true)
    (hb : bs.length = c.firstBytes) :
    giveCommand p c bs s = s.headed p c ctx := by
  have h1 : serveCommand p c bs (s.asked p c bs) = s.headed p c ctx := by
    rw [hserve]
    simp [finishHeader, State.asked, State.headed, State.modPort, Port.asked, Port.opened, Port.close, Port.headed]
  have h2 : ((s.headed p c ctx).port p).held = (s.port p).held :=
    (congrArg Port.held (State.modPort_port_self s p (Port.headed c ctx)) :)
  rw [giveCommand_ready c hc bs hs hr hb, h1, drainHeld_nil]
  rw [h2, hh]

/-- The header of a field-wise command that is refused with RANGE (R6, R98, R100). -/
theorem giveHeader_refused (c : Command) (hc : c ≠ .readStatus) (bs : List Byte)
    (hserve : ∀ t, serveCommand p c bs t = finishHeader p none t)
    (hs : Quiet s) (hh : (s.port p).held = []) (hr : c.permits (s.port p).role = true)
    (hb : bs.length = c.firstBytes) :
    giveCommand p c bs s = s.answered p c .range false := by
  have h1 : serveCommand p c bs (s.asked p c bs) = s.answered p c .range false := by
    rw [hserve]
    simp [finishHeader, State.asked, State.answered, State.modPort, Port.asked, Port.opened, Port.close,
      Port.answered]
  rw [giveCommand_ready c hc bs hs hr hb, h1, drainHeld_nil]
  simp [Port.answered, hh]

/-- A field or entry of the command open on a port where no step waits (R163, R168). -/
theorem giveField_ready (isHere : FieldContext → Bool) (ctx : FieldContext) (bs : List Byte) (hs : Quiet s)
    (hctx : (s.port p).context = some ctx) (hhere : isHere ctx = true)
    (hph : (s.port p).phase = .parameters) :
    giveField p isHere bs s
      = drainHeld p (finishField p ctx
          (serveField ctx bs (s.onPort p (fun P => { P with stepBytes := bs, phase := .waiting }) p))) := by
  have hat : (s.port p).standsAt isHere bs = true := by simp [Port.standsAt, hctx, hhere, hph]
  simp only [giveField, hat, if_true]
  rw [serveWaiting_only (by simp [Port.isWaiting]) (fun q hq => by simp [State.modPort_port, hq, hs q])]
  simp only [serveStep, State.modPort_port_self, hctx]
  rfl

theorem exec_softReset_ready (h : Ready p .supervise s) :
    exec (.softReset p) s
      = .next { ((softResetJobs s).mapPorts Port.softReset).modPort p (fun P =>
          { P with partialBits := [], lastOut := none, lastCommand := some Command.softReset.code, lastResult := .ok,
                   clamped := false }) with turn := p } := by
  show Host.Outcome.next (giveCommand p .softReset [] s) = _
  rw [giveCommand_ready .softReset (by decide) [] h.1 (by rw [h.2.2]; rfl) rfl]
  have h1 : serveCommand p .softReset [] (s.asked p .softReset [])
      = { ((softResetJobs s).mapPorts Port.softReset).modPort p (fun P =>
          { P with partialBits := [], lastOut := none, lastCommand := some Command.softReset.code, lastResult := .ok,
                   clamped := false }) with turn := p } := by
    simp only [serveCommand, softReset, softResetJobs, State.asked, State.mapPorts, State.modPort, State.mapLanes]
    fin_cases p <;> simp [Port.softReset, Port.softResetOwn, Port.asked, Port.opened, Port.close]
  rw [h1, drainHeld_nil]
  have h2 := h.2.1
  simp only [State.port, State.modPort, State.mapPorts, Fin.getElem_fin] at h2 ⊢
  fin_cases p <;> simp_all [Port.softReset, Port.close, softResetJobs, State.mapLanes]

end Sys2Proof.Machine
end

