-- ==== Sys2Proof/Laws/Invariants.lean ====
section
/-! SUPPORT. The induction over a step, once: a property that the ports, the turn and the queue do not touch, and
that every service, count, edge, event and reset keeps, is kept by every step. -/

namespace Sys2Proof.Machine

/-- What a property of the records must be kept by. -/
structure Kept (P : State → Prop) : Prop where
  port : ∀ s p f, P s → P (s.modPort p f)
  turn : ∀ (s : State) u, P s → P { s with turn := u }
  queue : ∀ (s : State) q, P s → P { s with pending := q }
  reset : ∀ straps lines s, P s → P (fullReset straps lines s)
  softReset : ∀ p s, P s → P (softReset p s)
  startLane : ∀ bs s, P s → P (serveStartLane bs s).state
  stopLane : ∀ bs s, P s → P (serveStopLane bs s).state
  spliceBegin : ∀ bs s, P s → P (serveSpliceBegin bs s).state
  spliceEnd : ∀ bs s, P s → P (serveSpliceEnd bs s).state
  knotDone : ∀ bs s, P s → P (serveKnotDone bs s).state
  cutDone : ∀ bs s, P s → P (serveCutDone bs s).state
  setMode : ∀ bs s, P s → P (serveSetMode bs s).state
  setGeometry : ∀ bs s, P s → P (serveSetGeometry bs s).state
  setFactor : ∀ bs s, P s → P (serveSetFactor bs s).state
  mapLane : ∀ bs s, P s → P (serveMapLane bs s).state
  assignRecipe : ∀ bs s, P s → P (serveAssignRecipe bs s).state
  calibrate : ∀ bs s, P s → P (serveCalibrate bs s).state
  clearLane : ∀ bs s, P s → P (serveClearLane bs s).state
  ackStop : ∀ bs s, P s → P (serveAckStop bs s).state
  clearCounts : ∀ bs s, P s → P (serveClearCounts bs s).state
  forceLine : ∀ bs s, P s → P (serveForceLine bs s).state
  panelStart : ∀ s, P s → P (servePanelStart s).state
  panelHalt : ∀ s, P s → P (servePanelHalt s).state
  releasePackage : ∀ s, P s → P (serveReleasePackage s).state
  field : ∀ ctx bs s, P s → P (serveField ctx bs s).state
  threadingEnd : ∀ (l : LaneNo) (s : State), P s → P (threadingEndIfMet l s)
  windowEnd : ∀ (l : LaneNo) (s : State), P s → P (windowEndIfMet l s)
  spliceOverlong : ∀ (l : LaneNo) (s : State), P s → P (spliceOverlongIfMet l s)
  tallyLimit : ∀ (l : LaneNo) (s : State), P s → P (tallyLimitIfMet l s)
  coilCutDue : ∀ (l : LaneNo) (s : State), P s → P (coilCutDueIfMet l s)
  cutLate : ∀ (c : CutName) (s : State), P s → P (cutLateIfMet c s)
  rowFallsDue : ∀ (s : State), P s → P (rowFallsDueIfMet s)
  rowTimeout : ∀ (s : State), P s → P (rowTimeoutIfMet s)
  tailReached : ∀ (s : State), P s → P (tailReachedIfMet s)
  passAClose : ∀ (k : PosNo) (s : State), P s → P (passACloseIfMet k s)
  passBClose : ∀ (k : PosNo) (s : State), P s → P (passBCloseIfMet k s)
  wheelCount : ∀ (d : Direction) (k : PosNo) (s : State), P s → P (wheelCount d k s)
  flyerPulse : ∀ (k : PosNo) (s : State), P s → P (positionFlyer k s)
  capstanRising : ∀ (k : PosNo) (s : State), P s → P (positionCapstanRising k s)
  capstanFalling : ∀ (k : PosNo) (s : State), P s → P (calFalling k s)
  drawCount : ∀ (d : Direction) (s : State), P s → P (drawCount d s)
  bothLines : ∀ (d : Decoder) (s : State), P s → P (bothLines d s)

variable {P : State → Prop}

theorem Kept.action (h : Kept P) (p : PortNo) (r : Served) (hr : P r.state) : P (finishAction p r) :=
  h.port _ _ _ hr

theorem Kept.read (h : Kept P) (p : PortNo) (r : ReadOut) (hr : P r.state) : P (finishRead p r) :=
  h.port _ _ _ hr

theorem Kept.header (h : Kept P) (p : PortNo) (ctx : Option FieldContext) (s : State) (hs : P s) :
    P (finishHeader p ctx s) := h.port _ _ _ hs

theorem Kept.serveCommand (h : Kept P) (p : PortNo) (c : Command) (bs : List Byte) (s : State) (hs : P s) :
    P (serveCommand p c bs s) := by
  cases c
  case setPosition | writeRecipe | writePattern => exact h.header _ _ _ hs
  case startLane => exact h.action _ _ (h.startLane bs s hs)
  case stopLane => exact h.action _ _ (h.stopLane bs s hs)
  case spliceBegin => exact h.action _ _ (h.spliceBegin bs s hs)
  case spliceEnd => exact h.action _ _ (h.spliceEnd bs s hs)
  case knotDone => exact h.action _ _ (h.knotDone bs s hs)
  case cutDone => exact h.action _ _ (h.cutDone bs s hs)
  case setMode => exact h.action _ _ (h.setMode bs s hs)
  case setGeometry => exact h.action _ _ (h.setGeometry bs s hs)
  case setFactor => exact h.action _ _ (h.setFactor bs s hs)
  case mapLane => exact h.action _ _ (h.mapLane bs s hs)
  case assignRecipe => exact h.action _ _ (h.assignRecipe bs s hs)
  case calibrate => exact h.action _ _ (h.calibrate bs s hs)
  case clearLane => exact h.action _ _ (h.clearLane bs s hs)
  case ackStop => exact h.action _ _ (h.ackStop bs s hs)
  case clearCounts => exact h.action _ _ (h.clearCounts bs s hs)
  case forceLine => exact h.action _ _ (h.forceLine bs s hs)
  case panelStart => exact h.action _ _ (h.panelStart s hs)
  case panelHalt => exact h.action _ _ (h.panelHalt s hs)
  case releasePackage => exact h.action _ _ (h.releasePackage s hs)
  case softReset => exact h.softReset p s hs
  case setInterest => exact h.action _ _ (by simp only [serveSetInterest]; exact h.port _ _ _ hs)
  case readNotices => exact h.read _ _ (by simp only [readNotices, readOk]; exact h.port _ _ _ hs)
  case readStatus => exact h.port _ _ (Port.stream .ok (readStatus p s).body) hs
  case readLine | readRow | readCuts => exact h.read _ _ hs
  case readLane => exact h.read _ _ (by simp only [readLane]; split <;> exact hs)
  case readTrim => exact h.read _ _ (by simp only [readTrim]; split <;> exact hs)
  case readCal => exact h.read _ _ (by simp only [readCal]; split <;> exact hs)
  case readPackage => exact h.read _ _ (by simp only [readPackage]; split <;> exact hs)
  case readMarks => exact h.read _ _ (by simp only [readMarks]; (repeat' split) <;> exact hs)

theorem Kept.serveStep (h : Kept P) (p : PortNo) (s : State) (hs : P s) : P (serveStep p s) := by
  have ht := h.turn s p hs
  simp only [Machine.serveStep]
  split
  · simp only [finishField]
    exact h.port _ _ _ (h.field _ _ _ ht)
  · split
    · exact h.serveCommand _ _ _ _ ht
    · exact h.port _ _ _ ht

theorem Kept.drain (h : Kept P) (p : PortNo) (hs : List HeldByte) (s : State) (hP : P s) : P (drain p hs s) := by
  induction hs generalizing s with
  | nil => exact hP
  | cons b bs ih =>
    simp only [Machine.drain]
    split
    · exact h.port _ _ _ hP
    · exact ih _ (h.port _ _ _ hP)

theorem Kept.drainHeld (h : Kept P) (p : PortNo) (s : State) (hs : P s) : P (drainHeld p s) :=
  h.drain _ _ _ (h.port _ _ _ hs)

theorem Kept.serveNext (h : Kept P) (s : State) (hs : P s) : P (serveNext s) := by
  simp only [Machine.serveNext]
  split
  · exact hs
  · exact h.drainHeld _ _ (h.serveStep _ _ hs)

theorem Kept.serveWaiting (h : Kept P) (p : PortNo) (s : State) (hs : P s) : P (serveWaiting p s) := by
  have key : ∀ (n : Nat) (t : State), P t → P (serveThrough n p t) := by
    intro n
    induction n with
    | zero => exact fun t ht => ht
    | succ n ih =>
      intro t ht
      simp only [serveThrough]
      split
      · exact ht
      · split
        · exact h.serveNext t ht
        · exact ih _ (h.serveNext t ht)
  simp only [Machine.serveWaiting]
  split
  · exact key 4 s hs
  · exact hs

theorem Kept.arrive (h : Kept P) (p : PortNo) (b : HeldByte) (s : State) (hs : P s) : P (arrive p b s) := by
  simp only [Machine.arrive]
  split
  · exact h.drainHeld _ _ (h.serveWaiting _ _ (h.port _ _ _ hs))
  · exact h.port _ _ _ hs

theorem Kept.arriveData (h : Kept P) (p : PortNo) (bs : List Byte) (s : State) (hs : P s) :
    P (arriveData p bs s) := by
  induction bs generalizing s with
  | nil => exact hs
  | cons b bs ih => exact ih _ (h.arrive _ _ _ hs)

theorem Kept.giveCommand (h : Kept P) (p : PortNo) (c : Command) (bs : List Byte) (s : State) (hs : P s) :
    P (giveCommand p c bs s) := by
  simp only [Machine.giveCommand]
  split
  · exact h.serveWaiting _ _ hs
  · exact h.serveWaiting _ _ (h.arriveData _ _ _ (h.arrive _ _ _ hs))

theorem Kept.giveField (h : Kept P) (p : PortNo) (isHere : FieldContext → Bool) (bs : List Byte) (s : State)
    (hs : P s) : P (giveField p isHere bs s) := by
  have ht : P (if (s.port p).standsAt isHere bs then s else Machine.serveWaiting p s) := by
    split
    · exact hs
    · exact h.serveWaiting _ _ hs
  simp only [Machine.giveField]
  generalize (if (s.port p).standsAt isHere bs then s else Machine.serveWaiting p s) = t at ht ⊢
  split
  · exact h.serveWaiting _ _ (h.port _ _ _ ht)
  · exact hs

theorem Kept.byteInTransfer (h : Kept P) (p : PortNo) (isCommand : Bool) (b : Byte) (s : State) (hs : P s) :
    P (byteInTransfer p isCommand b s) := by
  simp only [Machine.byteInTransfer]
  split
  · exact h.arrive _ _ _ (h.port _ _ _ hs)
  · exact hs

theorem Kept.clockBit (h : Kept P) (p : PortNo) (sdi cdn : Bool) (s : State) (hs : P s) :
    P (clockBit p sdi cdn s) := by
  simp only [Machine.clockBit, takeBit]
  split
  · split
    · exact h.port _ _ _ (h.serveWaiting _ _ hs)
    · exact h.arrive _ _ _ (h.port _ _ _ (h.serveWaiting _ _ hs))
  · exact hs

theorem Kept.endTransfer (h : Kept P) (p : PortNo) (s : State) (hs : P s) : P (endTransfer p s) := by
  simp only [Machine.endTransfer]
  split
  · exact h.port _ _ _ (h.serveWaiting _ _ hs)
  · exact h.port _ _ _ hs

/-- Every command answers a next state (R167: what the part refuses it refuses with a result code). -/
theorem exec_answers (i : Instr) (s : State) : ∃ t, exec i s = .next t := by
  cases i <;> exact ⟨_, rfl⟩

/-- Every command keeps what its operations keep. -/
theorem Kept.exec (h : Kept P) {i : Instr} {s t : State} (he : exec i s = .next t) (hs : P s) : P t := by
  cases i <;> (injection he with he; subst he)
  case startLane | stopLane | spliceBegin | spliceEnd | knotDone | cutDone | setMode |
      setGeometry | setFactor | mapLane | assignRecipe | calibrate | clearLane | ackStop |
      clearCounts | forceLine | panelStart | panelHalt | releasePackage | setInterest | readStatus |
      readNotices | readLane | readLine | readMarks | readPackage | readTrim | readRow |
      readCuts | readCal | setPosition | writeRecipe | writePattern | softReset => exact h.giveCommand _ _ _ _ hs
  case setPositionField | writeRecipeField | writePatternEntry => exact h.giveField _ _ _ _ hs
  case powerOnReset | hardReset => exact h.reset _ _ _ hs
  case transferOpen | transferBreak | transferPause => exact h.port _ _ _ hs
  case transferEnd => exact h.endTransfer _ _ hs
  case commandByte | dataByte => exact h.byteInTransfer _ _ _ _ hs
  case sckRisingEdge => exact h.clockBit _ _ _ _ hs
  case wheelCountForward | wheelCountReverse => exact h.wheelCount _ _ _ hs
  case flyerPulse => exact h.flyerPulse _ _ hs
  case capstanRisingEdge => exact h.capstanRising _ _ hs
  case capstanFallingEdge => exact h.capstanFalling _ _ hs
  case drawCount => exact h.drawCount _ _ hs
  case bothLinesChange => exact h.bothLines _ _ hs
  case threadingEnd => exact h.threadingEnd _ _ hs
  case windowEnd => exact h.windowEnd _ _ hs
  case spliceOverlong => exact h.spliceOverlong _ _ hs
  case tallyLimitReached => exact h.tallyLimit _ _ hs
  case coilCutDue => exact h.coilCutDue _ _ hs
  case cutLate => exact h.cutLate _ _ hs
  case rowFallsDue => exact h.rowFallsDue _ hs
  case rowTimeout => exact h.rowTimeout _ hs
  case tailReached => exact h.tailReached _ hs
  case passAClose => exact h.passAClose _ _ hs
  case passBClose => exact h.passBClose _ _ hs

/-- Every step keeps what its operations keep. -/
theorem Kept.step (h : Kept P) {s t : State} (he : step s = .next t) (hs : P s) : P t := by
  simp only [Machine.step] at he
  split at he
  · injection he with he
    subst he
    exact h.serveNext s hs
  · exact h.exec he (h.queue s _ hs)

end Sys2Proof.Machine
end

