-- ==== Sys2Proof/Laws/Operations.lean ====
section
/-! SUPPORT. For the operations that the meanings share, one lemma each that says what the operation does:
numbers in bytes, the notice sets, the mark list, the slots in use, the recipe switch, and the joining and the
lateness of a cut. -/

namespace Sys2Proof.Machine

variable {s : State}

/-! ### Numbers carried in a byte -/

@[simp] theorem laneNo_ofNat (l : LaneNo) : laneNo (BitVec.ofNat 8 l.val) = some l := by
  revert l; decide

@[simp] theorem posNo_ofNat (k : PosNo) : posNo (BitVec.ofNat 8 k.val) = some k := by
  revert k; decide

@[simp] theorem slotNo_ofNat (i : SlotNo) : slotNo (BitVec.ofNat 8 i.val) = some i := by
  revert i; decide

theorem laneNo_none {b : Byte} (h : 8 ≤ b.toNat) : laneNo b = none := by
  simp only [laneNo, dif_neg (show ¬ b.toNat < 8 by omega)]

theorem posNo_none {b : Byte} (h : 10 ≤ b.toNat) : posNo b = none := by
  simp only [posNo, dif_neg (show ¬ b.toNat < 10 by omega)]

theorem slotNo_none {b : Byte} (h : 4 ≤ b.toNat) : slotNo b = none := by
  simp only [slotNo, dif_neg (show ¬ b.toNat < 4 by omega)]

@[simp] theorem beBytes_length (n v : Nat) : (beBytes n v).length = n := by
  induction n with
  | zero => rfl
  | succ n ih => simp [beBytes, ih]

/-! ### Notice sets -/

@[simp] theorem laneIn_laneBit (l m : LaneNo) : laneIn (laneBit l) m = decide (l = m) := by
  revert l m; decide

theorem NoticeSet.has_add (n : NoticeSet) (k j : NoticeKind) (ls : LaneSet) :
    (n.add k ls).has j = (n.has j || decide (j = k)) := by
  cases k <;> cases j <;> simp [NoticeSet.add, NoticeSet.has, NoticeKind.bit, NoticeKind.index]

theorem NoticeSet.lanesFor_add (n : NoticeSet) (k j : NoticeKind) (ls : LaneSet) :
    (n.add k ls).lanesFor j = if j = k then n.lanesFor j ||| ls else n.lanesFor j := by
  cases k <;> cases j <;> simp [NoticeSet.add, NoticeSet.lanesFor, NoticeKind.index]

/-! ### The mark list -/

/-- A mark joins behind every mark at or before its position and before the next one beyond (R81). -/
theorem insertMark_spec (m : Mark) (ms : List Mark) : ∃ front back, ms = front ++ back ∧
    insertMark m ms = front ++ m :: back ∧ (∀ n ∈ front, n.position ≤ m.position) ∧
    ∀ n, back.head? = some n → m.position < n.position := by
  induction ms with
  | nil => exact ⟨[], [], by simp [insertMark]⟩
  | cons x xs ih =>
    by_cases h : x.position ≤ m.position
    · obtain ⟨f, b, rfl, h2, h3, h4⟩ := ih
      exact ⟨x :: f, b, rfl, by simp [insertMark, h, h2], by simpa using ⟨h, h3⟩, h4⟩
    · exact ⟨[], x :: xs, rfl, by simp [insertMark, h], by simp, by simpa using (by omega)⟩

@[simp] theorem insertMark_length (m : Mark) (ms : List Mark) : (insertMark m ms).length = ms.length + 1 := by
  obtain ⟨f, b, rfl, h, -, -⟩ := insertMark_spec m ms
  simp [h]; omega

@[simp] theorem insertMark_filter_length (m : Mark) (ms : List Mark) (p : Mark → Bool) :
    ((insertMark m ms).filter p).length = (ms.filter p).length + if p m then 1 else 0 := by
  obtain ⟨f, b, rfl, h, -, -⟩ := insertMark_spec m ms
  simp only [h, List.filter_append, List.filter_cons, List.length_append]
  split
  · simp; omega
  · simp

/-- A mark handed to a full pool is lost; else it takes an entry of its lane's list (R81 to R83, R86). -/
theorem handMark_cases (m : Mark) (s : State) :
    (96 ≤ s.marksHeld ∧ handMark m s = s.modLane m.lane fun x => { x with marksLost := true }) ∨
    (s.marksHeld < 96 ∧ handMark m s =
      { s with
        marks :=
          { lists := s.marks.lists.set m.lane
              (insertMark { guardMark (s.lane m.lane).coilStart m with made := s.marks.nextMade }
                (s.markList m.lane))
            nextMade := s.marks.nextMade + 1 } }) := by
  by_cases h : s.freeEntries = 0
  · left
    refine ⟨?_, by simp [handMark, h]⟩
    simp only [State.freeEntries, markPoolSize] at h; omega
  · right
    refine ⟨?_, by simp [handMark, h, State.setMarkList]⟩
    simp only [State.freeEntries, markPoolSize] at h; omega

theorem insertMark_eq_placed (m : Mark) (ms : List Mark) : insertMark m ms = placed m ms := by
  induction ms with
  | nil => rfl
  | cons x xs ih =>
    by_cases h : x.position ≤ m.position <;> simp_all [insertMark, placed]

theorem marksOut_eq_goneOut (cut : Nat) (ms : List Mark) : marksOut false cut ms = goneOut cut ms := by
  simp only [marksOut, goneOut, Bool.false_eq_true, if_false]
  congr 1
  funext m
  by_cases h : cut ≤ m.position
  · simp [outAtCut, h]
  · cases he : m.extent <;>
      simp [outAtCut, Mark.isOpenSplice, Mark.endPos, h, he, show ¬ cut < m.position by omega]

theorem marksStay_eq_leftIn (cut : Nat) (ms : List Mark) : marksStay false cut ms = leftIn cut ms := by
  simp only [marksStay, leftIn, Bool.false_eq_true, if_false]
  congr 1
  funext m
  by_cases h : cut ≤ m.position
  · simp [stayAtCut, h]
  · cases he : m.extent <;>
      simp [stayAtCut, Mark.isOpenSplice, Mark.endPos, h, he, show ¬ cut < m.position by omega]

/-! ### Slots in use and the recipe switch -/

/-- The test that the fields of a slot make is the rule's list of cases (R101). -/
theorem slotInUse_iff (s : State) (i : SlotNo) : slotInUse s i = true ↔ InUse s i := by
  have h : ∀ p : LaneNo → Bool, allLanes.any p = true ↔ ∃ l, p l = true := by
    intro p
    simp only [List.any_eq_true]
    exact ⟨fun ⟨l, _, h⟩ => ⟨l, h⟩, fun ⟨l, h⟩ => ⟨l, (by decide : ∀ m : LaneNo, m ∈ allLanes) l, h⟩⟩
  simp only [slotInUse, Bool.or_eq_true, h, Bool.and_eq_true, beq_iff_eq, bne_iff_ne, exists_or, InUse,
    State.panelOpen, Option.isSome_iff_ne_none, or_assoc, and_assoc, ne_eq]

/-- A lane after a recipe switch (R70, R111). -/
theorem switchLane_lane (l : LaneNo) (i : SlotNo) (s : State) :
    (switchLane l i s).lane l = (s.lane l).restartedUnder (s.recipe i) i := by
  have ht : (setStartTrim l (s.modLane l (Lane.takeSlot i))).lane l =
      { s.lane l with slot := i, limitStrike := false, trim := startTrim (s.recipe i) (s.lane l).trim } := by
    simp only [setStartTrim, State.activeRecipe, State.modLane_recipe, State.modLane_lane_self, Lane.takeSlot]
    split
    · rename_i h
      simp [h, Lane.takeSlot]
    · simp [Lane.takeSlot]
  cases h : (s.lane l).state <;> simp only [switchLane, Lane.restartedUnder, h, ht, State.modLane_lane_self] <;>
    rw [← h] <;> rfl

/-! ### Cuts -/

theorem holdsOther_iff (u : CutUnit) (w : CutWhat) :
    u.holdsOther w = true ↔ ∃ e ∈ u.list, e.what.isCoil ≠ w.isCoil := by
  simp [CutUnit.holdsOther]

theorem freePlaces_eq_zero (u : CutUnit) : u.freePlaces = 0 ↔ 8 ≤ u.queue.length + u.requested := by
  simp only [CutUnit.freePlaces]; omega

/-- A cut that joins takes the tail of the list, REQUESTED with CUT_DUE where a place is free (R143). -/
theorem joinCut_cuts (w : CutWhat) (due : Nat) (late : Bool) (s : State) :
    (joinCut w due late s).cuts =
      { s.cuts with list := s.cuts.list ++ [
        { what := w, duePos := due, late := late
          state := if s.cuts.queue.length + s.cuts.requested < 8 then .requested else .held }] } := by
  by_cases h : s.cuts.freePlaces = 0
  · have := (freePlaces_eq_zero _).1 h
    simp [joinCut, h, State.modCuts, show ¬ s.cuts.queue.length + s.cuts.requested < 8 by omega]
  · have := (not_congr (freePlaces_eq_zero _)).1 h
    simp [joinCut, h, State.modCuts, show s.cuts.queue.length + s.cuts.requested < 8 by omega]

/-- A freed place reaches the first HELD entry of the list (R143, R157). -/
theorem promoteFirst_spec (front back : List CutEntry) (e : CutEntry) (hf : ∀ f ∈ front, f.state = .requested)
    (he : e.state = .held) :
    promoteFirst (front ++ e :: back) = front ++ { e with state := .requested } :: back := by
  induction front with
  | nil => simp [promoteFirst, he]
  | cons x xs ih =>
    have hx : x.state = .requested := hf x (by simp)
    simp [promoteFirst, hx, ih fun f h => hf f (by simp [h])]

end Sys2Proof.Machine
end

