-- ==== Sys2Proof/WellFormed.lean ====
section
/-! DEFINITION. Which commands a sender can spell. Ports, lanes, positions and byte parameters are bounded
by their types; the two field steps carry a number, which must fit the width of its field (R174, R176). -/

namespace Sys2Proof

/-- A field step names a field that exists and carries a value of that field's width. -/
def Instr.wellFormed : Instr → Bool
  | .setPositionField _ field value => decide (value < 256 ^ field.bytes)
  | .writeRecipeField _ index value => decide (index ≤ 28) && decide (value < 256 ^ recipeFieldBytes index)
  | .powerOnReset _ _ | .hardReset _ _ | .transferOpen _ | .commandByte _ _ | .dataByte _ _
  | .transferEnd _ | .transferBreak _ | .transferPause _ | .readStatus _ | .readNotices _
  | .setInterest _ _ | .readLane _ _ | .readLine _ | .readMarks _ _ _ | .readPackage _
  | .startLane _ _ | .stopLane _ _ | .spliceBegin _ _ | .spliceEnd _ _ | .readTrim _ _
  | .panelStart _ | .panelHalt _ | .knotDone _ _ _ | .readRow _ | .cutDone _ _
  | .releasePackage _ | .readCuts _ | .setMode _ _ | .setGeometry _ _ _ _ | .setPosition _ _
  | .setFactor _ _ _ _ | .mapLane _ _ _ | .writeRecipe _ _ _ | .writePattern _ _ _
  | .writePatternEntry _ _ | .assignRecipe _ _ _ _ | .calibrate _ _ _ _ | .clearLane _ _
  | .ackStop _ _ | .clearCounts _ _ | .forceLine _ _ _ | .softReset _ | .readCal _ _
  | .wheelCountForward _ | .wheelCountReverse _ | .flyerPulse _ | .capstanRisingEdge _
  | .capstanFallingEdge _ | .drawCount _ | .threadingEnd _ | .windowEnd _ | .spliceOverlong _
  | .tallyLimitReached _ | .coilCutDue _ | .cutLate _ | .rowFallsDue | .rowTimeout | .tailReached
  | .passAClose _ | .passBClose _ | .sckRisingEdge _ _ _ | .bothLinesChange _ => true

end Sys2Proof
end

