-- ==== Sys2Proof/Tests/Slice0.lean ====
section
/-! SUPPORT. The model's own tests: what `wellFormed` refuses, single steps of the manual's worked examples, and
for each statement with hypotheses a concrete state that meets them. -/

namespace Sys2Proof.Tests

open Sys2Proof Sys2Proof.Machine

/-! ### Helpers -/

/-- What a command leaves, seen through a view. -/
def seen {α : Type} (i : Instr) (s : State) (view : State → α) : Option α :=
  match exec i s with
  | .next t => some (view t)
  | .fault _ | .refused _ => none

/-- The reset state with one lane changed. -/
def withLane (l : LaneNo) (f : Lane → Lane) : State := State.reset.modLane l f

/-- A lane in RUN at a tally in micrometres, with a window opened at `start`. -/
def running (um start : Nat) (x : Lane) : Lane :=
  { x with state := .run, tally := um * 256, windowStart := start }

/-- A mark with neither row nor junction. -/
def mark (kind : MarkKind) (l : LaneNo) (position : Nat) (extent : Option Nat) (made : Nat) : Mark :=
  { kind := kind, lane := l, position := position, extent := extent, sense := none, row := none, junction := none,
    made := made }

/-! ### What is not well formed -/

theorem test_wellFormed_refuses_wide_position_field :
    (Instr.setPositionField 3 .inService 256).wellFormed = false ∧
    (Instr.setPositionField 3 .cRef (256 ^ 3)).wellFormed = false ∧
    (Instr.setPositionField 3 .cRef 1256637).wellFormed = true := by decide

theorem test_wellFormed_refuses_unknown_recipe_field :
    (Instr.writeRecipeField 3 29 0).wellFormed = false ∧ (Instr.writeRecipeField 3 28 32).wellFormed = true := by
  decide

theorem test_wellFormed_refuses_wide_recipe_field :
    (Instr.writeRecipeField 3 12 65536).wellFormed = false ∧
    (Instr.writeRecipeField 3 12 65535).wellFormed = true := by decide

/-! ### 01, "Worked sequences" -/

/-- START_LANE 2: THREADING at tally 0, trim kept at -3. -/
theorem test_start_lane :
    seen (.startLane 0 2) (withLane 2 fun x => { x with tally := 7412003 * 256, trim := -3, slot := 1 })
        (fun t => ((t.lane 2).state, (t.lane 2).tally, (t.lane 2).trim)) =
      some (.threading, 0, -3) := by decide

/-- The count that carries the tally to 20,000,218 ends threading, with trim (-32 + 31) / 2 = 0. -/
theorem test_threading_end :
    seen (.threadingEnd 2) (withLane 2 fun x => { x with state := .threading, tally := 20000218 * 256, trim := -3 })
        (fun t => ((t.lane 2).state, (t.lane 2).trim, (t.lane 2).windowStart, (t.lane 2).plan.planPos)) =
      some (.run, 0, 20000218, 220000000) := by decide

/-- MAP_LANE 5 to 8. -/
theorem test_map_lane :
    seen (.mapLane 3 5 8) State.reset
        (fun t => ((t.lane 5).position, (t.position 5).mappedLane, (t.position 8).mappedLane)) =
      some (some 8, none, some 5) := by decide

/-- MAP_LANE 6 to 5, position 5 being out of service. -/
theorem test_map_lane_conflict :
    seen (.mapLane 3 6 5) (State.reset.modPosition 5 fun x => { x with inService := false, mappedLane := none })
        (fun t => ((t.port 3).lastResult, (t.lane 6).position)) =
      some (.conflict, some 6) := by decide

/-! ### 02, "Worked accumulation" -/

theorem test_reverse_count_stops_at_zero :
    seen (.wheelCountReverse 3) (withLane 3 fun x => { x with state := .threading })
      (fun t => (t.lane 3).tally) = some 0 := by decide

/-- The count after the store of K = 100,472. -/
theorem test_forward_count_adds_the_factor :
    seen (.wheelCountForward 4)
      ((withLane 4 (running 50000000 50000000)).modPosition 4 fun x => { x with k := 100472 })
      (fun t => ((t.lane 4).tally, (t.lane 4).um)) = some (12800100472, 50000392) := by decide

theorem test_ceiling :
    seen (.wheelCountForward 1)
      (withLane 1 fun x => { x with state := .run, tally := 255999999950000, windowStart := 999999999804 })
      (fun t => ((t.lane 1).tally, (t.lane 1).state, (t.lane 1).faultCause)) =
        some (256000000000000, .fault, some .tallyLimit) := by decide

/-! ### 03, "Worked calibration" -/

/-- Position 4 in a pass of the worked calibration. -/
def calibrating (c : CalRecord) : State :=
  { withLane 4 (running 0 0) with cals := State.reset.cals.set 4 { c with n := some 8, calTol := some 1, lane := some 4 } }

/-- The eighth rising edge after the start edge closes pass A. -/
theorem test_pass_a_close :
    seen (.capstanRisingEdge 4)
        (calibrating { CalRecord.reset with state := .passA, started := true, edges := 7, nRun := 25612 })
        (fun t => ((t.cal 4).state, (t.cal 4).kA, (t.cal 4).edges, (t.cal 4).nRun)) =
      some (.passB, some 100484, 0, 0) := by decide

/-- The ninth falling edge closes pass B. -/
theorem test_pass_b_close :
    seen (.capstanFallingEdge 4)
        (calibrating { CalRecord.reset with state := .passB, started := true, edges := 8, nRun := 25618, kA := some 100484 })
        (fun t => ((t.cal 4).kB, (t.cal 4).k, (t.cal 4).result, (t.cal 4).stored, (t.position 4).k)) =
      some (some 100460, some 100472, some .pass, true, 100472) := by decide

/-- Wide pulse, cal_tol 1. -/
theorem test_pass_b_tolerance :
    seen (.passBClose 4)
        (calibrating { CalRecord.reset with state := .passB, started := true, edges := 9, nRun := 25700, kA := some 100484 })
        (fun t => ((t.cal 4).k, (t.cal 4).result, (t.cal 4).cause, (t.position 4).k)) =
      some (some 100312, some .fail, some .tolerance, 100000) := by decide

/-- Undersized wheel. -/
theorem test_pass_b_range :
    seen (.passBClose 4)
        (calibrating { CalRecord.reset with state := .passB, started := true, edges := 9, nRun := 5001, kA := some 514719 })
        (fun t => ((t.cal 4).k, (t.cal 4).result, (t.cal 4).cause)) =
      some (some 514668, some .fail, some .range) := by decide

/-! ### 04, "Worked windows" -/

/-- Lane 0 under the worked recipe, with Np 4, C_ref 1,256,637 and Pc 64 at position 0. -/
def twisting (ms : List Mark) (f : Lane → Lane) : State :=
  ((({ State.reset with
        recipes := State.reset.recipes.set 1 { State.reset.recipe 1 with targetTpm := 20800 } }).modPosition 0
      fun x => { x with pc := 64 }).modLane 0 fun x => f { x with slot := 1 }).setMarkList 0 ms

/-- Zone B of the worked windows after window 4. -/
def zoneB : Mark := { mark .twistZone 0 46000580 (some 2000250) 1 with sense := some .low }

/-- Window 5 is HIGH and extends the LOW zone B, which becomes BOTH. -/
theorem test_window_extends_the_zone :
    seen (.windowEnd 0)
        (twisting [zoneB] fun x =>
          { running 50001000 48000830 x with windowPulses := 1701, periodIndex := 4 })
        (fun t => ((t.lane 0).lastTpm, (t.lane 0).highCount, t.markList 0)) =
      some (some 21261, 1, [{ zoneB with extent := some 4000420, sense := some .both }]) := by decide

/-- Window 8 ends the period with the step -1. -/
theorem test_window_steps_the_trim :
    seen (.windowEnd 0)
        (twisting [] fun x =>
          { running 56001600 54001400 x with windowPulses := 1700, periodIndex := 7, highCount := 2 })
        (fun t => ((t.lane 0).lastTpm, (t.lane 0).trim, (t.lane 0).periodIndex, (t.lane 0).windowStart)) =
      some (some 21248, -1, 0, 56001600) := by decide

/-- Window 13 is the third slip window in a row. -/
theorem test_third_slip_window_faults :
    seen (.windowEnd 0)
        (twisting [] fun x =>
          { running 66002200 64002000 x with
            windowPulses := 1664, capstanPulses := 108, periodIndex := 4, slipRun := 2, trim := -1 })
        (fun t => ((t.lane 0).state, (t.lane 0).faultCause, (t.lane 0).trim, (t.markList 0).map (·.position))) =
      some (.fault, some .wheelSlip, -1, [66002200]) := by decide

/-- Window 10 misses the slip limit by 180 micrometres. -/
theorem test_no_slip_window :
    seen (.windowEnd 0)
        (twisting [] fun x =>
          { running 60001750 58001750 x with windowPulses := 1664, capstanPulses := 105, slipRun := 1 })
        (fun t => ((t.lane 0).state, (t.lane 0).slipRun)) = some (.run, 0) := by decide

/-! ### 05, "Worked sequences" -/

/-- The PITCH mark of row 41 lands between the zone and the slip. -/
theorem test_mark_lands_in_the_middle :
    ((handMark (mark .pitch 2 33700000 (some 262000) 9)
        (State.reset.setMarkList 2
          [mark .twistZone 2 30000000 (some 2000100) 0, mark .slip 2 34000300 none 1])).markList 2).map (·.kind) =
      [.twistZone, .pitch, .slip] := by decide

/-- The marks of lane 1 at the coil cut with a spanning zone. -/
def spanningMarks : List Mark :=
  [mark .splice 1 41200000 (some 1850000) 0, mark .twistZone 1 96000000 (some 4000300) 1,
   mark .slip 1 150002000 none 2, mark .splice 1 180500000 (some 2100000) 3,
   mark .twistZone 1 216001000 (some 6000500) 4, mark .slip 1 222001500 none 5]

/-- A REQUESTED coil cut. -/
def requestedCoil (l : LaneNo) (r : CutReason) (due : Nat) : CutEntry :=
  { what := .coil l r, duePos := due, state := .requested, late := false }

/-- Lane 1 at its coil cut. -/
def atCoilCut : State :=
  { (withLane 1 fun x => { x with state := .run, tally := 220000000 * 256, marksLost := true }).setMarkList 1
      spanningMarks with
    cuts := { CutUnit.reset with list := [requestedCoil 1 .normal 220000000] } }

theorem test_cut_splits_the_spanning_zone :
    seen (.cutDone 2 1) atCoilCut (fun t => ((t.lane 1).coilStart, (t.lane 1).marksLost)) = some (220000000, false) ∧
    seen (.cutDone 2 1) atCoilCut (fun t => (t.markList 1).map fun m => (m.position, m.extent)) =
      some [(220000000, some 2001500), (222001500, none)] := by decide

/-- A pending slot taken at an END cut of a STOPPING lane: limit_strike returns to 0, and the trim stays (R68, R70). -/
theorem test_end_cut_switch_clears_the_strike :
    seen (.cutDone 2 7)
        { withLane 7 (fun x =>
            { x with state := .stopping, pendingSlot := some 3, limitStrike := true, trim := -7 }) with
          cuts := { CutUnit.reset with list := [requestedCoil 7 .endCut 0] } }
        (fun t => ((t.lane 7).slot, (t.lane 7).limitStrike, (t.lane 7).trim, (t.lane 7).state)) =
      some (3, false, -7, .idle) := by decide

theorem test_cut_totals_and_flags :
    seen (.cutDone 2 1) atCoilCut (fun t => t.cuts.queue.map fun x =>
        (x.totals.splice, x.totals.twistZone, x.totals.slip, x.flags.marksIncomplete, x.markList.length)) =
      some [(2, 2, 1, true, 5)] := by decide

/-! ### 07, "Worked panel" -/

/-- Lane 2 and its neighbours at row 2 of the worked panel: rows 0 and 1 knotted. -/
def panelAt (row : Nat) (draw : Nat) (rows : List RowRecord) : State :=
  { (((((State.reset.modLane 0 fun x => { running 40575500 0 x with lastRowTally := some 40287000 }).modLane 1
        fun x => { running 41652500 0 x with lastRowTally := some 41327500 }).modLane 2
        fun x => { running 40135000 0 x with lastRowTally := some 39818000, pitchRun := 1 }).modLane 3
        fun x => { running 40779000 0 x with lastRowTally := some 40490000 })) with
    recipes := State.reset.recipes.set 0 { Recipe.default with netWidth := 4, panelRows := 6 }
    line := { Line.reset with mode := .net, dKnot := 3200, kDraw := 102400, drawTally := draw * 256 }
    panel := { Panel.reset with state := .laying, netWidth := some 4, drawStart := 10000000, nextRow := row,
                                lastClosedRow := some (row - 1) }
    rows := rows }

/-- Row 2 of the worked panel. -/
def row2 : RowRecord :=
  { row := 2, expected := 0b0000101, dueDraw := 11000000, timeoutDraw := 11125000,
    captured := [40575500, 41652500, 40135000, 40779000] }

/-- Row 2 falls due: expected set 0 and 2; lane 2 fails the feed check by 9,000 micrometres. -/
theorem test_row_falls_due :
    seen .rowFallsDue (panelAt 2 11000000 []) (fun t => (t.rows, (t.lane 2).pitchRun)) = some ([row2], 2) ∧
    seen .rowFallsDue (panelAt 2 11000000 []) (fun t => (t.markList 2).map fun m => (m.position, m.extent)) =
      some [(36935000, some 317000)] := by decide

/-- KNOT_DONE 2 with junctions 0 and 1: MISSED_KNOT on lane 2, EXTRA_KNOT on lane 1. -/
theorem test_knot_done :
    seen (.knotDone 1 2 0b00000011) (panelAt 3 11000000 [row2])
        (fun t => (t.markList 2).map fun m => (m.kind, m.position, m.junction)) =
      some [(.missedKnot, 36935000, some 2)] ∧
    seen (.knotDone 1 2 0b00000011) (panelAt 3 11000000 [row2])
        (fun t => (t.markList 1).map fun m => (m.kind, m.position, m.junction)) =
      some [(.extraKnot, 38452500, some 1)] := by decide

/-- KNOT_DONE 3 with row 3 not yet due. -/
theorem test_knot_done_range :
    seen (.knotDone 1 3 2) (panelAt 3 11000000 []) (fun t => (t.port 1).lastResult) = some .range := by decide

/-- The tail is reached at 12,250,000. -/
theorem test_tail_reached :
    seen .tailReached
      { panelAt 6 12250000 [] with
        panel := { Panel.reset with state := .finishing, netWidth := some 4, drawStart := 10000000, nextRow := 6 } }
      (fun t => (t.panel.state, t.cuts.list.map (fun e => (e.what, e.state)))) =
        some (.cutWait, [(.panel 0x0F, .requested)]) := by decide

/-! ### 08, "Worked sequences" -/

set_option maxRecDepth 100000 in
/-- The third splice of the short coil moves the plan to 328,500,000. -/
theorem test_short_coil :
    seen (.spliceBegin 0 5)
        { (withLane 5 fun x =>
            { running 330000000 329000000 x with
              coilStart := 220000000, plan := { state := .watching, planPos := 440000000, reason := .normal } }).setMarkList 5
            [mark .splice 5 250000000 (some 2000000) 0, mark .splice 5 300000000 (some 2000000) 1] with
          line := { Line.reset with dCut := 14500 } }
        (fun t => (t.lane 5).plan) =
      some { state := .watching, planPos := 328500000, reason := .short } := by decide

/-- Lane 6 whose coil cut falls due while lane 2's entry has the last place. -/
def fullQueue : State :=
  { (withLane 6 fun x =>
      { running 880000000 879000000 x with
        coilStart := 660000000, plan := { state := .watching, planPos := 880000000, reason := .normal } }) with
    cuts :=
      { list := [requestedCoil 2 .normal 5], deferred := [], counter := 1
        queue := List.replicate 7
          { number := 65535, kind := .coil, lane := some 0, slot := 0, lengths := [1], rows := none
            flags := { short := false, endCut := false, overlength := false, spliceExcess := false,
                       marksIncomplete := false, marksTruncated := false, trimLimited := false, rowsSkipped := false }
            totals := { splice := 0, twistZone := 0, slip := 0, pitch := 0, missedKnot := 0, extraKnot := 0 }
            markList := [] } } }

theorem test_coil_cut_is_held :
    seen (.coilCutDue 6) fullQueue (fun t => t.cuts.list.map fun e => (e.what, e.duePos, e.state)) =
      some [(.coil 2 .normal, 5, .requested), (.coil 6 .normal, 880000000, .held)] := by decide

theorem test_release_makes_the_held_cut_requested :
    seen (.releasePackage 2)
        { fullQueue with
          cuts := { fullQueue.cuts with
            list := [{ what := .coil 6 .normal, duePos := 880000000, state := .held, late := true }] } }
        (fun t => (t.cuts.queue.length, t.cuts.list.map (·.state), (t.port 0).notices.has .cutDue)) =
      some (6, [.requested], true) := by decide

/-! ### 09 and 10, the worked transaction and the worked sequence -/

/-- P3 in WRITE_RECIPE of slot 2, before field 12. -/
def writingSlot2 (index : Nat) : State :=
  State.reset.modPort 3 fun P =>
    { P with transferOpen := true, phase := .parameters, openCommand := some 0x45, lastCommand := some 0x45,
             lastResult := .ok, context := some (.recipe 2 index) }

/-- 00h, 28h as data bytes: the second completes field 12; the arbiter's turn then stores 40. -/
theorem test_field_bytes_and_service :
    (match execAll [.dataByte 3 0x00, .dataByte 3 0x28] (writingSlot2 12) with
      | .next t => (match step t with | .next u => some ((u.recipe 2).coilM, (u.port 3).lastResult) | _ => none)
      | _ => none) = some (40, .ok) := by decide

/-- The same bytes with the close of the transfer right behind them: the field whose bytes were all in is stored
before the command closes (R98, R99), and the result stays OK between two fields. -/
theorem test_field_bytes_and_close :
    (match execAll [.dataByte 3 0x00, .dataByte 3 0x28, .transferEnd 3] (writingSlot2 12) with
      | .next t => some ((t.recipe 2).coilM, (t.port 3).lastResult, (t.port 3).transferOpen, (t.port 3).phase)
      | _ => none) = some (40, .ok, false, .none) := by decide

/-- Entries right behind the bytes of the header of WRITE_PATTERN, none of them served yet: each comes after the
step that waits before it (R163), and the row pointer ends at row 7 (R100). -/
theorem test_entries_behind_the_header :
    (match execAll [.transferOpen 3, .commandByte 3 0x46, .dataByte 3 0x02, .dataByte 3 0x04,
        .writePatternEntry 3 0x0055, .dataByte 3 0x00, .dataByte 3 0x2A, .writePatternEntry 3 0x0013] State.reset with
      | .next t => some ((t.recipe 2).pattern[4], (t.recipe 2).pattern[5], (t.recipe 2).pattern[6], (t.port 3).context)
      | _ => none) = some (0b1010101, 0b0101010, 0b0010011, some (.pattern 2 7)) := by decide

/-- Field 14 once lane 4 holds slot 2 as its pending slot. -/
theorem test_field_in_use :
    seen (.writeRecipeField 3 14 1500)
        ((writingSlot2 14).modLane 4 fun x => { x with state := .run, pendingSlot := some 2 })
        (fun t => ((t.recipe 2).overlengthMm, (t.port 3).lastResult, (t.port 3).phase)) =
      some (2000, .inUse, .discarding) := by decide

theorem test_read_status :
    seen (.readStatus 3)
        (State.reset.modPort 3 fun P => { P with lastCommand := some 0x45, lastResult := .inUse })
        (fun t => (t.port 3).response) =
      some [0x00, 0x03, 0x03, 0xFF, 0x45, 0x04, 0x00] := by decide

theorem test_read_notices :
    seen (.readNotices 3)
        (State.raise .stop 0x14 (State.raise .rowClosed 0x2A (State.raise .laneState 0x04 State.reset)))
        (fun t => ((t.port 3).response, (t.port 3).notices.present)) =
      some ([0x00, 0x00, 0x49, 0x04, 0x00, 0x00, 0x2A, 0x00, 0x00, 0x14, 0x00, 0x00], 0) := by decide

/-- The first ACK_STOP of the worked sequence: lane 2 is still in FAULT. -/
theorem test_ack_stop :
    seen (.ackStop 3 0b1001)
        { withLane 2 (fun x => { x with state := .fault, faultCause := some .wheelSlip }) with
          stops := { rowOverrun := true, cutLate := false, feed := false, laneFault := true, faultRecord := 0x04 } }
        (fun t => (t.stops.rowOverrun, t.stops.laneFault, t.stops.faultRecord, t.stopReq)) =
      some (false, true, 0x04, true) := by decide

/-- Eight clock edges with CDn low at the last make the command byte 45h (R160, R161). -/
theorem test_clock_edges :
    (match execAll ([false, true, false, false, false, true, false, true].map fun b => .sckRisingEdge 3 b false)
        (State.reset.modPort 3 fun P => { P with transferOpen := true }) with
      | .next t => some ((t.port 3).openCommand, (t.port 3).phase, (t.port 3).partialBits)
      | _ => none) = some (some 0x45, .parameters, []) := by decide

/-- SOFT_RESET within a response byte of another port: the byte C3h goes out whole, and the next is 00h (R172). -/
theorem test_soft_reset_within_a_byte :
    seen (.softReset 3)
        (State.reset.modPort 0 fun P =>
          { P with transferOpen := true, phase := .streaming, response := [0x00, 0xC3], respPtr := 1
                   partialBits := [true, true, true, true, true, true, true] })
        (fun t => ((t.port 0).sdo, (t.port 0).outgoing)) = some (some true, 0x00) := by decide

/-- TRIM_MIN is carried as a two's complement byte: E0h is -32 (R176). -/
theorem test_signed_field :
    seen (.writeRecipeField 3 6 0xE0) (writingSlot2 6) (fun t => (t.recipe 2).trimMin) = some (-32) := by decide

/-! ### A state for every hypothesis

Each theorem shows, clause by clause, a concrete state and operands that meet all hypotheses of a clause
together, at the boundary values of its ranges. -/

/-- The reset state with an open transfer at a port, and its record changed. -/
def atPort (p : PortNo) (f : Port → Port) : State :=
  State.reset.modPort p fun P => f { P with transferOpen := true }

/-- A port whose complete step waits. -/
def waitingWith (code : Byte) (P : Port) : Port := { P with phase := .waiting, openCommand := some code }

theorem witness_ArbiterServesOneStepInTurn :
    (State.reset.pending = [] ∧ Quiet State.reset) ∧
    (let s := (atPort 0 (waitingWith 0x20)).modPort 1 (waitingWith 0x20)
     s.pending = [] ∧ (∃ q, (s.port q).isWaiting = true) ∧ nextWaiting s = some 0 ∧
       (s.port 0).openCommand ≠ some Command.softReset.code ∧ ∃ r : PortNo, r ≠ 0 ∧ (s.port r).isWaiting = true) := by
  decide

theorem witness_SoftResetReturnsTheJobs :
    Ready 3 .supervise State.reset ∧
    (let s := atPort 3 (waitingWith 0x4D)
     s.pending = [] ∧ nextWaiting s = some 3 ∧ (s.port 3).openCommand = some 0x4D ∧ (s.port 3).context = none ∧
       (s.port 3).held = []) := by decide

theorem witness_CommandByteOpensItsCommand :
    (let s := atPort 0 id
     (s.port 0).transferOpen = true ∧ (s.port 0).isWaiting = false ∧ (s.port 0).phase = .none) ∧
    (let s := atPort 0 fun P => { P with phase := .discarding }
     (s.port 0).transferOpen = true ∧ (s.port 0).isWaiting = false ∧ (s.port 0).phase = .discarding) := by decide

theorem witness_DataBytesBuildStepsAndDrawResponses :
    (let s := atPort 0 fun P => { P with phase := .parameters, openCommand := some 0x10 }
     (s.port 0).transferOpen = true ∧ (s.port 0).phase = .parameters ∧ (s.port 0).context = none ∧
       (s.port 0).openCommand = some Command.startLane.code ∧ Command.startLane.firstBytes = 1) ∧
    (let s := atPort 3 fun P => { P with phase := .parameters, context := some (.position 9 .cRef) }
     (s.port 3).transferOpen = true ∧ (s.port 3).phase = .parameters ∧
       (s.port 3).context = some (.position 9 .cRef) ∧ PositionField.cRef.bytes = 3) ∧
    (let s := atPort 3 fun P => { P with phase := .parameters, context := some (.recipe 3 28) }
     (s.port 3).phase = .parameters ∧ (s.port 3).context = some (.recipe 3 28) ∧ recipeFieldBytes 28 = 1) ∧
    (let s := atPort 3 fun P => { P with phase := .parameters, context := some (.pattern 3 31) }
     (s.port 3).phase = .parameters ∧ (s.port 3).context = some (.pattern 3 31)) ∧
    (let s := atPort 3 fun P => { P with phase := .streaming, response := [0x00, 0x2A] }
     (s.port 3).transferOpen = true ∧ (s.port 3).phase = .streaming ∧ (s.port 3).respPtr = 0 ∧
       (s.port 3).partialBits = [] ∧ (s.port 3).lastOut = none) := by decide

theorem witness_SelectOpensEndsBreaksAndPauses :
    (let s := atPort 3 fun P => { waitingWith 0x46 P with context := some (.recipe 2 28), stepBytes := [2] }
     s.pending = [] ∧ (∀ q, (s.port q).held = []) ∧ (s.port 3).transferOpen = true ∧ (s.port 3).isWaiting = true ∧
       (s.port 3).partialBits = [] ∧ nextWaiting s = some 3) ∧
    (let s := atPort 0 (waitingWith 0x20)
     (s.port 0).transferOpen = true ∧ (s.port 0).partialBits = [] ∧ (s.port 0).phase = .waiting ∧
       (s.port 0).context = none ∧ (s.port 0).openCommand = some 0x20) ∧
    (let s := atPort 0 id
     (s.port 0).transferOpen = true ∧ (s.port 0).partialBits = [] ∧ (s.port 0).isWaiting = false) ∧
    (let s := atPort 0 fun P => { P with partialBits := [true] }
     (s.port 0).transferOpen = true ∧ (s.port 0).partialBits ≠ []) := by decide

theorem witness_EightClockEdgesMakeOneByte :
    (State.reset.port 0).transferOpen = false ∧
    (let s := atPort 0 fun P => { P with partialBits := List.replicate 6 true }
     (s.port 0).transferOpen = true ∧ (s.port 0).isWaiting = false ∧ (s.port 0).partialBits.length < 7) ∧
    (let s := atPort 0 id
     (s.port 0).transferOpen = true ∧ (s.port 0).isWaiting = false ∧ (s.port 0).partialBits = []) := by decide

theorem witness_WholeCommandIsItsBytesAndATurn :
    (let s := atPort 0 id
     (Instr.startLane 0 7).spells = some (0, .startLane, [7]) ∧ Quiet s ∧ s.pending = [] ∧ (s.port 0).held = [] ∧
       (s.port 0).transferOpen = true ∧ (s.port 0).partialBits = [] ∧ (s.port 0).lastOut = none ∧
       Command.startLane.permits (s.port 0).role = true) ∧
    ((Instr.startLane 1 7).spells = some (1, .startLane, [7]) ∧ Quiet State.reset ∧
       Command.startLane.permits (State.reset.port 1).role = false) := by decide

/-- P3 in SET_POSITION of position 4, before a field. -/
def settingPosition (field : PositionField) : State :=
  atPort 3 fun P => { P with phase := .parameters, context := some (.position 4 field) }

theorem witness_PositionFieldsAreStoredOrRefused :
    (Ready 3 .supervise State.reset ∧ 10 ≤ (10#8).toNat ∧ 4 ≤ (4#8).toNat ∧ 29 ≤ (29#8).toNat ∧
      32 ≤ (32#8).toNat) ∧
    (let s := settingPosition .np
     Quiet s ∧ (s.port 3).held = [] ∧ (s.port 3).phase = .parameters ∧
       (s.port 3).context = some (.position 4 .np) ∧ 255 < 256 ^ PositionField.np.bytes ∧
       (s.cal 4).state ≠ .passA ∧ (s.cal 4).state ≠ .passB) ∧
    (let s := (settingPosition .inService).modLane 4 fun x => { x with state := .threading }
     Quiet s ∧ (s.port 3).held = [] ∧ (s.port 3).phase = .parameters ∧
       (s.port 3).context = some (.position 4 .inService) ∧ (s.position 4).mappedLane = some 4 ∧
       (s.lane 4).state ≠ .idle) ∧
    (let s := (settingPosition .pc).modCal 4 fun c => { c with state := .passB }
     Quiet s ∧ (s.port 3).context = some (.position 4 .pc) ∧ (s.cal 4).state = .passB) := by decide

theorem witness_RecipeFieldsAndPatternsAreStoredOrRefused :
    (let s := writingSlot2 28
     Quiet s ∧ (s.port 3).held = [] ∧ (s.port 3).phase = .parameters ∧
       (s.port 3).context = some (.recipe 2 28) ∧ 255 < 256 ^ recipeFieldBytes 28 ∧ ¬ InUse s 2) ∧
    (let s := (writingSlot2 0).modLane 7 fun x => { x with state := .stopping, slot := 2 }
     Quiet s ∧ (s.port 3).phase = .parameters ∧ (s.port 3).context = some (.recipe 2 0) ∧
       InUse s 2) ∧
    (let s := atPort 3 fun P => { P with phase := .parameters, context := some (.pattern 2 31) }
     Quiet s ∧ (s.port 3).held = [] ∧ (s.port 3).phase = .parameters ∧
       (s.port 3).context = some (.pattern 2 31) ∧ ¬ InUse s 2) ∧
    (let s := (atPort 3 fun P => { P with phase := .parameters, context := some (.pattern 2 0) }).modLane 0
       fun x => { x with state := .run, pendingSlot := some 2 }
     Quiet s ∧ (s.port 3).context = some (.pattern 2 0) ∧ InUse s 2) := by
  refine ⟨⟨by decide, by decide, by decide, by decide, by decide, by decide⟩, ⟨by decide, by decide, by decide, by decide⟩,
    ⟨by decide, by decide, by decide, by decide, by decide⟩, by decide, by decide, by decide⟩

theorem witness_SlotInUseDoesNotChange :
    let s := (writingSlot2 0).modLane 7 fun x => { x with state := .run, slot := 2 }
    InUse s 2 ∧ s.pending = [] ∧ Quiet s ∧
      seen (.writeRecipeField 3 0 100) s (fun t => (t.port 3).lastResult) = some .inUse := by
  refine ⟨by decide, by decide, by decide, by decide⟩

theorem witness_NoticesAreRaisedShownAndRead : Quiet State.reset ∧ ∀ p, (State.reset.port p).held = [] := by decide

theorem witness_RequestLinesFollowTheirState :
    (State.reset.forcing.rowReq = .auto ∧ State.reset.forcing.cutReq = .auto ∧ State.reset.forcing.stopReq = .auto) ∧
    (let s := { State.reset with forcing := { rowReq := .low, cutReq := .low, stopReq := .low } }
     s.forcing.rowReq = .low ∧ s.forcing.cutReq = .low ∧ s.forcing.stopReq = .low) ∧
    (let s := { State.reset with forcing := { rowReq := .high, cutReq := .high, stopReq := .high } }
     s.forcing.rowReq = .high ∧ s.forcing.cutReq = .high ∧ s.forcing.stopReq = .high) ∧
    Ready 3 .supervise State.reset ∧ 3 ≤ (3#8).toNat := by decide

theorem witness_AckStopRemovesWhatMayGo :
    (let s := { State.reset with
        stops := { rowOverrun := true, cutLate := true, feed := true, laneFault := true, faultRecord := 0x80 } }
     Ready 3 .supervise s ∧ (0x08#8).getLsbD 3 = true ∧ s.stops.laneFault = true) ∧
    (Ready 3 .supervise State.reset ∧ (0xF7#8).getLsbD 3 = false ∧ State.reset.stops.laneFault = false) := by decide

theorem witness_ReadStatusReportsThePort : Quiet State.reset ∧ ∀ p, (State.reset.port p).held = [] := by decide

theorem witness_ReadLaneAndReadTrimReportTheLane :
    Quiet State.reset ∧ (State.reset.port 0).held = [] ∧ Ready 0 .twist State.reset ∧ 8 ≤ (8#8).toNat := by decide

theorem witness_ReadMarksAndReadPackageReportTheStore :
    (Quiet State.reset ∧ (State.reset.port 2).held = [] ∧ 8 ≤ (8#8).toNat ∧ 96 ≤ (96#8).toNat ∧ (95#8).toNat < 96) ∧
    ((State.reset.port 2).role = .pack ∧ State.reset.cuts.queue = []) ∧
    (fullQueue.cuts.queue ≠ [] ∧ Quiet fullQueue ∧ (fullQueue.port 3).role = .supervise) := by decide

theorem witness_ReadRowAndReadCutsReportTheSchedule :
    Ready 1 .knot State.reset ∧ Ready 2 .pack State.reset := by decide

theorem witness_ReadLineAndReadCalReport :
    (Quiet State.reset ∧ (State.reset.port 0).held = []) ∧
    (let s := State.reset.modCal 9 fun c => { c with nRun := -2147483648, nA := some 2147483647 }
     Ready 3 .supervise s ∧ 10 ≤ (10#8).toNat ∧ -2147483648 ≤ (s.cal 9).nRun ∧ (s.cal 9).nRun ≤ 2147483647 ∧
       (s.cal 9).nA = some 2147483647 ∧ (s.cal 9).nB = none) := by decide

theorem witness_StartLaneChecksAndStarts :
    (Ready 0 .twist State.reset ∧ 8 ≤ (8#8).toNat) ∧
    (let s := withLane 7 fun x => { x with state := .stopping }
     Ready 0 .twist s ∧ (s.lane 7).state ≠ .idle) ∧
    (let s := { State.reset with
        line := { Line.reset with mode := .net }
        recipes := State.reset.recipes.set 0 { Recipe.default with netWidth := 7 } }
     Ready 0 .twist s ∧ (s.lane 7).state = .idle ∧ (s.lane 7).position = some 7 ∧ (s.position 7).inService = true ∧
       (s.recipe 0).netWidth ≤ 7) ∧
    (Ready 0 .twist State.reset ∧ (State.reset.lane 7).state = .idle ∧ (State.reset.lane 7).position = some 7 ∧
       (State.reset.position 7).inService = true ∧ 0 < (State.reset.recipe 0).threadMm) ∧
    (let s := { State.reset with recipes := State.reset.recipes.set 0 { Recipe.default with threadMm := 0 } }
     Ready 0 .twist s ∧ (s.lane 0).state = .idle ∧ (s.lane 0).position = some 0 ∧
       (s.position 0).inService = true ∧ (s.recipe 0).threadMm = 0) := by decide

/-- Lane 5 of a line in NET mode whose net is four lanes wide and has its panel cut in the list. -/
def besideAPanel (lane : LaneNo) : State :=
  { (withLane lane (running 5000 0)) with
    line := { Line.reset with mode := .net }
    recipes := State.reset.recipes.set 0 { Recipe.default with netWidth := 4 }
    panel := { Panel.reset with state := .cutWait, netWidth := some 4 }
    cuts := { CutUnit.reset with list := [{ what := .panel 0x0F, duePos := 3, state := .requested, late := false }] } }

theorem witness_StopLaneEndsTheRun :
    (Ready 0 .twist State.reset ∧ 8 ≤ (8#8).toNat ∧ (State.reset.lane 7).state = .idle) ∧
    (let s := withLane 7 fun x => { x with state := .threading }
     Ready 0 .twist s ∧ (s.lane 7).state = .threading) ∧
    (let s := besideAPanel 3
     Ready 0 .twist s ∧ (s.lane 3).state ≠ .threading ∧ s.line.mode = .net ∧ s.panel.state ≠ .none ∧
       3 < (s.recipe s.line.lineSlot).netWidth) ∧
    (let s := withLane 3 (running 5000 0)
     Ready 0 .twist s ∧ (s.lane 3).state = .run ∧ s.line.mode = .rope ∧ (s.lane 3).plan.state ≠ .due ∧
       (∀ e ∈ s.cuts.list, e.what.isCoil = true)) ∧
    (let s := withLane 3 fun x =>
       { running 5000 0 x with
         state := .splicing, spliceStart := some 4000, plan := { CoilPlan.reset with state := .due } }
     Ready 0 .twist s ∧ (s.lane 3).state = .splicing ∧ (s.lane 3).spliceStart = some 4000 ∧
       (s.lane 3).plan.state = .due) ∧
    (let s := { (withLane 3 fun x => { running 2000001 0 x with plan := { CoilPlan.reset with state := .due } }) with
        cuts := { CutUnit.reset with list := [{ requestedCoil 3 .normal 0 with late := true }] } }
     Ready 0 .twist s ∧ (s.lane 3).state = .run ∧ s.line.mode = .rope ∧ (s.lane 3).plan.state = .due ∧
       0 + (s.recipe 0).overlengthMm * 1000 < (s.lane 3).tally / 256 - s.line.dCut * 1000) ∧
    (let s := besideAPanel 4
     Ready 0 .twist s ∧ (s.lane 4).state = .run ∧ (s.recipe s.line.lineSlot).netWidth ≤ 4 ∧
       (s.lane 4).plan.state ≠ .due ∧ ∃ e ∈ s.cuts.list, e.what.isCoil = false) := by decide

/-- Lane 5 as the short coil finds it, with its splices so far. -/
def beforeShortCoil (planPos dCut : Nat) (splices : List Mark) : State :=
  { (withLane 5 fun x =>
      { running 330000000 329000000 x with
        coilStart := 220000000, plan := { state := .watching, planPos := planPos, reason := .normal } }).setMarkList 5
      splices with
    line := { Line.reset with dCut := dCut } }

/-- Two closed splices of lane 5. -/
def twoSplices : List Mark :=
  [mark .splice 5 250000000 (some 2000000) 0, mark .splice 5 300000000 (some 2000000) 1]

set_option maxRecDepth 100000 in
theorem witness_SplicesOpenAndClose :
    (Ready 0 .twist State.reset ∧ 8 ≤ (8#8).toNat ∧ (State.reset.lane 7).state ≠ .run ∧
      (State.reset.lane 7).state ≠ .splicing) ∧
    (let s := beforeShortCoil 440000000 14500 []
     Ready 0 .twist s ∧ (s.lane 5).state = .run ∧ s.marksHeld < 96) ∧
    (let s := beforeShortCoil 440000000 14500 twoSplices
     Ready 0 .twist s ∧ (s.lane 5).state = .run ∧ s.marksHeld < 96 ∧ (s.lane 5).plan.state = .watching ∧
       (s.recipe 0).maxSplices < ((s.markList 5).filter fun m => m.kind == .splice).length + 1 ∧
       (s.recipe 0).minCoilM * 1000000 ≤ 328500000 - (s.lane 5).coilStart ∧ 328500000 < (s.lane 5).plan.planPos ∧
       (s.lane 5).tally / 256 - s.line.dCut * 1000 < 328500000) ∧
    (let s := beforeShortCoil 440000000 1500 twoSplices
     (s.lane 5).state = .run ∧ 328500000 ≤ (s.lane 5).tally / 256 - s.line.dCut * 1000 ∧ s.line.mode = .rope) ∧
    (let s := { beforeShortCoil 440000000 1500 twoSplices with line := { Line.reset with dCut := 1500, mode := .net } }
     (s.lane 5).state = .run ∧ s.marksHeld < 96 ∧ (s.lane 5).plan.state = .watching ∧ s.line.mode = .net) ∧
    (let s := beforeShortCoil 440000000 14500 (List.replicate 96 (mark .slip 5 230000000 none 0))
     Ready 0 .twist s ∧ (s.lane 5).state = .run ∧ 96 ≤ s.marksHeld) ∧
    (let s := withLane 5 fun x => { x with state := .splicing, spliceStart := some 4000 }
     Ready 0 .twist s ∧ (s.lane 5).spliceStart = some 4000 ∧ (s.lane 5).state = .splicing) := by decide

theorem witness_ClearLaneReturnsAFaultedLane :
    (Ready 3 .supervise State.reset ∧ 8 ≤ (8#8).toNat ∧ (State.reset.lane 7).state ≠ .fault) ∧
    (let s := withLane 7 fun x => { x with state := .fault, faultCause := some .tallyLimit }
     Ready 3 .supervise s ∧ (s.lane 7).faultCause = some .tallyLimit) ∧
    (let s := withLane 7 fun x => { x with state := .fault, faultCause := some .wheelSlip }
     Ready 3 .supervise s ∧ (s.lane 7).state = .fault ∧ (s.lane 7).faultCause ≠ some .tallyLimit) := by decide

theorem witness_ClearCountsClearsTheCounters :
    let s := atPort 3 id
    Ready 3 .supervise s ∧ (s.port 3).transferOpen = true := by decide

theorem witness_SetModeChangesTheMode :
    (Ready 3 .supervise State.reset ∧ 2 ≤ (2#8).toNat) ∧
    (let s := withLane 7 fun x => { x with state := .stopping }
     Ready 3 .supervise s ∧ ∃ l, (s.lane l).state ≠ .idle) ∧
    ((∀ l, (State.reset.lane l).state = .idle) ∧ LineMode.rope = State.reset.line.mode ∧
      LineMode.net ≠ State.reset.line.mode) := by decide

theorem witness_MapLaneKeepsBothViews :
    (Ready 3 .supervise State.reset ∧ 8 ≤ (8#8).toNat ∧ 10 ≤ (10#8).toNat ∧ 10#8 ≠ 0xFF) ∧
    (let s := withLane 7 fun x => { x with state := .threading }
     Ready 3 .supervise s ∧ (s.lane 7).state ≠ .idle) ∧
    ((State.reset.lane 7).state = .idle ∧ (State.reset.position 0).mappedLane = some 0) ∧
    ((State.reset.lane 7).position = some 7 ∧ (State.reset.position 7).inService = true) ∧
    ((State.reset.position 9).inService = true ∧ (State.reset.position 9).mappedLane = none ∧
      some 9 ≠ (State.reset.lane 7).position) := by decide

theorem witness_GeometryAndFactorAreStoredClamped :
    (Ready 3 .supervise State.reset ∧ (∀ l, (State.reset.lane l).state = .idle) ∧ 10 ≤ (10#8).toNat ∧
      (State.reset.cal 9).state = .idle) ∧
    (let s := withLane 0 fun x => { x with state := .stopping }
     Ready 3 .supervise s ∧ ∃ l, (s.lane l).state ≠ .idle) ∧
    (let s := State.reset.modCal 9 fun c => { c with state := .passB }
     Ready 3 .supervise s ∧ (s.cal 9).state = .passB) := by decide

theorem witness_AssignRecipeNamesTheSlot :
    (Ready 3 .supervise State.reset ∧ 8 ≤ (8#8).toNat ∧ 8#8 ≠ 0x80 ∧ 4 ≤ (4#8).toNat ∧ 2 ≤ (2#8).toNat) ∧
    (State.reset.line.mode = .rope ∧ (State.reset.recipe 3).trimMin ≤ (State.reset.recipe 3).trimMax ∧
      (State.reset.recipe 3).minCoilM ≤ (State.reset.recipe 3).coilM ∧ 1 ≤ (State.reset.recipe 3).patternLen ∧
      (State.reset.lane 7).state = .idle) ∧
    (let s := { withLane 7 (fun x => { x with state := .run }) with
        recipes := State.reset.recipes.set 3 { Recipe.default with minCoilM := 221 } }
     Ready 3 .supervise s ∧ (s.lane 7).state ≠ .idle ∧ ¬ (s.recipe 3).minCoilM ≤ (s.recipe 3).coilM) ∧
    (let s := { State.reset with line := { Line.reset with mode := .net } }
     Ready 3 .supervise s ∧ s.line.mode = .net ∧ s.panel.state = .none) ∧
    (let s := besideAPanel 3
     Ready 3 .supervise s ∧ s.line.mode = .net ∧ s.panel.state ≠ .none) := by decide

theorem witness_CalibrationOpensAndCountsItsEdges :
    (Ready 3 .supervise State.reset ∧ 10 ≤ (10#8).toNat ∧ (0#8).toNat < 1 ∧ 64 < (65#8).toNat ∧ 50 < (51#8).toNat ∧
      1 ≤ (64#8).toNat ∧ (64#8).toNat ≤ 64 ∧ (50#8).toNat ≤ 50 ∧
      ¬ ∃ l, (State.reset.position 9).mappedLane = some l ∧ (State.reset.lane l).state = .run) ∧
    (let s := withLane 7 (running 0 0)
     Ready 3 .supervise s ∧ (s.cal 7).state = .idle ∧ (s.position 7).mappedLane = some 7 ∧ (s.lane 7).state = .run) ∧
    (let s := calibrating { CalRecord.reset with state := .passA }
     (s.cal 4).state = .passA ∧ (s.cal 4).started = false ∧ (s.position 4).mappedLane = some 4) ∧
    (let s := calibrating { CalRecord.reset with state := .passA, started := true, edges := 6 }
     (s.cal 4).started = true ∧ (s.cal 4).edges + 1 < (s.cal 4).n.getD 0 * (s.position 4).pc) ∧
    (let s := calibrating { CalRecord.reset with state := .passA, started := true, edges := 7 }
     (s.cal 4).n.getD 0 * (s.position 4).pc ≤ (s.cal 4).edges + 1) ∧
    (let s := calibrating { CalRecord.reset with state := .passB, started := true, edges := 7 }
     (s.cal 4).state = .passB ∧ (s.cal 4).edges < (s.cal 4).n.getD 0 * (s.position 4).pc) ∧
    (let s := calibrating { CalRecord.reset with state := .passB, started := true, edges := 8 }
     (s.cal 4).state = .passB ∧ (s.cal 4).n.getD 0 * (s.position 4).pc ≤ (s.cal 4).edges) := by decide

theorem witness_PassesCloseByTheirCounts :
    (let s := calibrating { CalRecord.reset with state := .passA, started := true, edges := 8, nRun := 0 }
     (s.cal 4).n = some 8 ∧ (s.cal 4).calTol = some 1 ∧ (s.cal 4).state = .passA ∧ (s.cal 4).started = true ∧
       8 * (s.position 4).pc ≤ (s.cal 4).edges ∧ (s.cal 4).nRun ≤ 0) ∧
    (let s := calibrating { CalRecord.reset with state := .passB, started := true, edges := 9, nRun := 25618,
                                                 kA := some 100484 }
     (s.cal 4).n = some 8 ∧ (s.cal 4).calTol = some 1 ∧ (s.cal 4).kA = some 100484 ∧ (s.cal 4).state = .passB ∧
       8 * (s.position 4).pc + 1 ≤ (s.cal 4).edges ∧ 0 < (s.cal 4).nRun) := by decide

theorem witness_WheelCountMovesTheTally :
    (let s := calibrating { CalRecord.reset with state := .passB }
     (s.position 4).mappedLane = some 4 ∧ (s.lane 4).state ≠ .idle ∧ (s.cal 4).state = .passB) ∧
    ((State.reset.lane 7).state = .idle ∧ (State.reset.cal 7).state = .idle ∧
      (State.reset.position 9).mappedLane ≠ some 7) := by decide

/-- A lane past its window's start with a due coil cut at 40 m and one deferred, in RUN, with its plan DUE. -/
def withDueCuts (um : Nat) (late : Bool) : State :=
  { (withLane 4 fun x => { running um 50000000 x with plan := { CoilPlan.reset with state := .due } }) with
    cuts := { CutUnit.reset with
      list := [{ requestedCoil 4 .normal 40000000 with late := late }]
      deferred := [{ what := .coil 4 .endCut, duePos := 49000000, late := late }] } }

/-- A count that carries the cutter past 49 m and 2 m of allowance makes the deferred cut late (R144). -/
theorem test_count_makes_a_due_cut_late :
    seen (.wheelCountForward 4) (withDueCuts 51000000 false)
        (fun t => (t.cuts.list.map (·.late), t.cuts.deferred.map (·.late), t.stops.cutLate)) =
      some ([true], [true], true) := by decide

/-- A reverse count back within the allowance ends the late condition and asks for nothing (R31, R144). -/
theorem test_reverse_count_ends_a_late_cut :
    seen (.wheelCountReverse 4) (withDueCuts 51000000 true)
        (fun t => (t.cuts.list.map (·.late), t.cuts.deferred.map (·.late), t.stops.cutLate)) =
      some ([true], [false], false) := by decide

/-- The count that carries the tally past the threading length ends threading within itself (R13, R30). -/
theorem test_count_ends_threading :
    seen (.wheelCountForward 2) (withLane 2 fun x => { x with state := .threading, tally := 20000000 * 256 - 1 })
        (fun t => ((t.lane 2).state, (t.lane 2).windowStart, (t.lane 2).plan.state)) =
      some (.run, 20000390, .watching) := by decide

theorem witness_CountWithoutAnEventMovesOnlyTheTally :
    (let s := withLane 2 fun x => { x with state := .threading, tally := 20000000 * 256 - 1 }
     (s.position 2).mappedLane = some 2 ∧ (s.lane 2).state ≠ .idle ∧ 0 < (s.lane 2).tally ∧
       (s.lane 2).tally + (s.position 2).k ≤ 256000000000000) ∧
    (let s := withDueCuts 51000000 false
     (s.position 4).mappedLane = some 4 ∧ (s.lane 4).state ≠ .idle ∧
       (s.lane 4).tally + (s.position 4).k ≤ 256000000000000 ∧ (s.lane 4).state ≠ .threading ∧
       ¬ (s.lane 4).windowStart + (s.recipe 0).windowMm * 1000
           ≤ ((s.lane 4).tally + (s.position 4).k) / 256 ∧
       (s.lane 4).state ≠ .splicing ∧ (s.lane 4).plan.state ≠ .watching) ∧
    (let s := withLane 4 fun x => { x with state := .stopping }
     (s.position 4).mappedLane = some 4 ∧ (s.lane 4).state ≠ .idle ∧ (s.lane 4).tally = 0 ∧
       (s.lane 4).state = .stopping) := by decide

theorem witness_CeilingHoldsTheTally :
    (let s := withLane 1 fun x => { x with state := .splicing, tally := 255999999900001, spliceStart := some 3 }
     (s.position 1).mappedLane = some 1 ∧ (s.lane 1).position = some 1 ∧
       256000000000000 < (s.lane 1).tally + (s.position 1).k ∧ (s.lane 1).state = .splicing ∧
       (s.recipe (s.lane 1).slot).stopOnFault = false ∧ s.line.mode = .rope) ∧
    (let s := { (withLane 1 fun x => { x with state := .run, tally := 256000000000000 }) with
        cals := State.reset.cals.set 1 { CalRecord.reset with state := .passB }
        recipes := State.reset.recipes.set 0 { Recipe.default with stopOnFault := true } }
     (s.position 1).mappedLane = some 1 ∧ (s.lane 1).position = some 1 ∧ (s.lane 1).state = .run ∧
       (s.cal 1).state = .passB ∧ (s.recipe (s.lane 1).slot).stopOnFault = true) ∧
    (let s := withLane 1 fun x => { x with state := .fault, faultCause := some .wheelSlip, tally := 255999999900001 }
     256000000000000 < (s.lane 1).tally + (s.position 1).k ∧ (s.lane 1).faultCause ≠ some .tallyLimit) ∧
    (let s := withLane 1 fun x => { x with state := .fault, faultCause := some .tallyLimit, tally := 256000000000000 }
     256000000000000 < (s.lane 1).tally + (s.position 1).k ∧ (s.lane 1).faultCause = some .tallyLimit) ∧
    (let s := withLane 1 fun x => { x with state := .stopping, tally := 256000000000000 }
     256000000000000 < (s.lane 1).tally + (s.position 1).k ∧ (s.lane 1).state = .stopping) := by decide

theorem witness_DecodersAndDrawFollowTheirLines :
    (State.reset.panel.state = .none ∧ State.reset.rows = [] ∧
      ∀ d ∈ State.reset.cuts.dueCuts, d.what.isCoil = true ∨ d.what = .panel 0) ∧
    (let s := { besideAPanel 5 with line := { Line.reset with mode := .net, drawTally := 2000003 * 256 } }
     s.panel.state = .cutWait ∧ s.rows = [] ∧
       (∀ d ∈ s.cuts.dueCuts, d.what.isCoil = true ∨ d.what = .panel 0x0F) ∧
       3 + (s.recipe s.line.lineSlot).overlengthMm * 1000 < (s.line.drawTally + s.line.kDraw) / 256 ∧
       s.cuts.list.map (·.late) = [false]) ∧
    (let s := panelAt 5 11749900 [row2]
     s.cuts.dueCuts = [] ∧ s.panel.state = .laying ∧ 11750000 ≤ (s.line.drawTally + s.line.kDraw) / 256 ∧
       row2.timeoutDraw ≤ (s.line.drawTally + s.line.kDraw) / 256) ∧
    (let s := panelAt 2 10999900 []
     s.cuts.dueCuts = [] ∧ s.rows = [] ∧ 11000000 ≤ (s.line.drawTally + s.line.kDraw) / 256) := by decide

/-- The draw count that reaches the due position of row 2 makes it fall due within itself (R118, R33). -/
theorem test_draw_count_makes_a_row_due :
    seen (.drawCount .forward) (panelAt 2 10999900 []) (fun t => (t.rows.map (·.row), t.panel.nextRow)) =
      some ([2], 3) := by decide

theorem witness_ThreadingEndsInRun :
    (let s := { withLane 2 (fun x => { x with state := .threading, tally := 20000000 * 256, trim := -3 }) with
       line := { Line.reset with dCut := 14500 } }
     (s.lane 2).state = .threading ∧ (s.recipe 0).threadMm * 1000 ≤ (s.lane 2).tally / 256 ∧ s.line.mode = .rope ∧
       (s.lane 2).tally / 256 - s.line.dCut * 1000 < (s.lane 2).coilStart + (s.recipe 0).coilM * 1000000) ∧
    (let s := { (withLane 2 fun x => { x with state := .threading, tally := 20000000 * 256 }) with
       recipes := State.reset.recipes.set 0 { Recipe.default with coilM := 17, minCoilM := 1 } }
     (s.lane 2).state = .threading ∧ (s.recipe 0).threadMm * 1000 ≤ (s.lane 2).tally / 256 ∧ s.line.mode = .rope ∧
       (s.lane 2).coilStart + (s.recipe 0).coilM * 1000000 ≤ (s.lane 2).tally / 256 - s.line.dCut * 1000 ∧
       17000000 + (s.recipe 0).overlengthMm * 1000 < 20000000) := by decide

/-- A window of 2 m on lane 0 with its pulses, capstan pulses and slip_run. -/
def window (pulses capstan slipRun : Nat) (f : Lane → Lane) : State :=
  twisting [] fun x => f
    { running 66002200 64002000 x with windowPulses := pulses, capstanPulses := capstan, slipRun := slipRun }

/-- The window end of lane 0 is due. -/
abbrev WindowDue (s : State) : Prop :=
  (s.lane 0).state = .run ∧ (s.lane 0).position = some 0 ∧
    (s.lane 0).windowStart + (s.recipe 1).windowMm * 1000 ≤ (s.lane 0).tally / 256

/-- The window of lane 0 is a slip window. -/
abbrev WindowSlips (s : State) : Prop :=
  let cap := (s.lane 0).capstanPulses * (s.position 0).cRef / (s.position 0).pc
  0 < cap ∧ (cap : Int) * (s.recipe 1).slipPm
    < ((cap : Int) - ((s.lane 0).tally / 256 - (s.lane 0).windowStart : Nat)) * 1000

theorem witness_WindowEndMeasuresAndCounts :
    (WindowDue (window 1664 108 2 id) ∧ WindowSlips (window 1664 108 2 id)) ∧
    (let s := { window 1664 108 2 id with
        recipes := State.reset.recipes.set 1 { Recipe.default with stopOnFault := true }
        cals := State.reset.cals.set 0 { CalRecord.reset with state := .passB, lane := some 0 } }
     WindowDue s ∧ WindowSlips s ∧ (s.recipe (s.lane 0).slot).stopOnFault = true ∧ (s.cal 0).state = .passB ∧
       (s.cal 0).lane = some 0) ∧
    (WindowDue (window 1664 108 1 id) ∧ WindowSlips (window 1664 108 1 id)) ∧
    (WindowDue (window 1664 0 2 id) ∧ ¬ WindowSlips (window 1664 0 2 id)) := by decide

theorem witness_AdaptationPeriodStepsTheTrim :
    (let s := window 1700 0 0 fun x => { x with periodIndex := 3 }
     WindowDue s ∧ ¬ WindowSlips s ∧ (s.lane 0).periodIndex + 1 ≠ (s.recipe 1).period) ∧
    (let s := window 1664 108 1 fun x => { x with periodIndex := 7 }
     WindowDue s ∧ WindowSlips s ∧ (s.lane 0).slipRun + 1 < 3 ∧
       (s.lane 0).periodIndex + 1 = (s.recipe 1).period ∧ (s.lane 0).highCount = 0 ∧ (s.lane 0).lowCount = 0) ∧
    (let s := window 1700 0 0 fun x => { x with periodIndex := 7, highCount := 2 }
     WindowDue s ∧ (s.lane 0).periodIndex + 1 = (s.recipe 1).period ∧
       (s.recipe 1).trimMin ≤ (s.lane 0).trim + -1 ∧ (s.lane 0).trim + -1 ≤ (s.recipe 1).trimMax) ∧
    (let s := window 1700 0 0 fun x => { x with periodIndex := 7, highCount := 2, trim := -32, limitStrike := false }
     WindowDue s ∧ (s.lane 0).limitStrike = false ∧ ¬ (s.recipe 1).trimMin ≤ (s.lane 0).trim + -1) ∧
    (let s := window 1700 0 0 fun x => { x with periodIndex := 7, highCount := 2, trim := -32, limitStrike := true }
     WindowDue s ∧ (s.lane 0).limitStrike = true ∧ ¬ (s.recipe 1).trimMin ≤ (s.lane 0).trim + -1 ∧
       (s.recipe (s.lane 0).slot).stopOnFault = false) := by decide

theorem witness_OutOfBandWindowMakesOrExtendsAZone :
    (let s := twisting [zoneB] fun x => { running 50001000 48000830 x with windowPulses := 1701 }
     WindowDue s ∧ IsNewestZone (s.markList 0) ⟨0, by decide⟩ ∧
       zoneB.position + zoneB.extent.getD 0 = (s.lane 0).windowStart) ∧
    (let s := window 1701 0 0 id
     WindowDue s ∧ s.markList 0 = [] ∧ s.marksHeld < 96 ∧
       max (s.lane 0).windowStart (s.lane 0).coilStart < (s.lane 0).tally / 256) ∧
    (let s := (window 1701 108 1 id).setMarkList 7 (List.replicate 95 (mark .slip 7 0 none 0))
     WindowDue s ∧ WindowSlips s ∧ s.markList 0 = [] ∧ s.marksHeld = 95) ∧
    (let s := (window 1701 108 1 id).setMarkList 7 (List.replicate 96 (mark .slip 7 0 none 0))
     WindowDue s ∧ WindowSlips s ∧ 96 ≤ s.marksHeld) := by decide

theorem witness_OverlongSpliceFaultsTheLane :
    (let s := withLane 3 fun x => { running 3000000 0 x with state := .splicing, spliceStart := some 0 }
     (s.lane 3).spliceStart = some 0 ∧ (s.lane 3).state = .splicing ∧
       (s.lane 3).tally / 256 ≤ 0 + (s.recipe 0).spliceMaxMm * 1000 ∧ (s.recipe 0).stopOnFault = false) ∧
    (let s := withLane 3 fun x => { running 3000001 0 x with state := .splicing, spliceStart := some 0 }
     (s.lane 3).spliceStart = some 0 ∧ (s.lane 3).state = .splicing ∧
       0 + (s.recipe 0).spliceMaxMm * 1000 < (s.lane 3).tally / 256) := by decide

theorem witness_HandedMarkIsStoredOrLost :
    State.reset.marksHeld < 96 ∧
    96 ≤ (State.reset.setMarkList 7 (List.replicate 96 (mark .slip 7 0 none 0))).marksHeld := by decide

theorem witness_PanelOpensAndHalts :
    (let s := { panelAt 0 10000000 [] with panel := Panel.reset }
     Ready 1 .knot s ∧ s.line.mode = .net ∧ s.panel.state = .none ∧
       (∀ l : LaneNo, l.val < (s.recipe 0).netWidth → (s.lane l).state = .run) ∧ 0 < (s.recipe 0).leadInMm) ∧
    (let s := { panelAt 0 10000000 [] with
        panel := Panel.reset
        recipes := State.reset.recipes.set 0 { Recipe.default with netWidth := 4, leadInMm := 0 } }
     Ready 1 .knot s ∧ s.panel.state = .none ∧ (s.recipe 0).leadInMm = 0 ∧ s.rows = []) ∧
    (let s := panelAt 2 11000000 []
     Ready 1 .knot s ∧ s.line.mode = .net ∧ s.panel.state ≠ .none) ∧
    (Ready 1 .knot State.reset ∧ State.reset.line.mode = .rope) := by decide

theorem witness_RowFallsDueOnTheDraw :
    (let s := panelAt 2 11000000 []
     s.panel.netWidth = some 4 ∧ s.panel.state = .laying ∧ 11000000 ≤ s.line.drawTally / 256 ∧ s.rows.length < 4 ∧
       s.marksHeld + 4 ≤ 96) ∧
    (let s := panelAt 5 12000000 (List.replicate 4 row2)
     s.panel.netWidth = some 4 ∧ s.panel.state = .laying ∧ 11750000 ≤ s.line.drawTally / 256 ∧ 4 ≤ s.rows.length ∧
       s.marksHeld + 7 ≤ 96) ∧
    (let s := (panelAt 5 12000000 (List.replicate 4 row2)).setMarkList 7 (List.replicate 96 (mark .slip 7 0 none 0))
     s.panel.netWidth = some 4 ∧ s.panel.state = .laying ∧ 96 ≤ s.marksHeld ∧ 4 ≤ s.rows.length) ∧
    (let s := panelAt 2 10999999 []
     s.panel.netWidth = some 4 ∧ s.line.drawTally / 256 < 11000000) := by decide

theorem witness_KnotDoneClosesTheOldestRow :
    (Ready 1 .knot State.reset ∧ State.reset.line.mode = .rope) ∧
    (let s := panelAt 3 11000000 [row2]
     Ready 1 .knot s ∧ s.line.mode = .net ∧ s.panel.state ≠ .none ∧ s.rows = [row2] ∧ row2.row = (2#16).toNat ∧
       s.marksHeld + 2 ≤ 96) ∧
    (let s := panelAt 3 11000000 [row2, { row2 with row := 3 }]
     Ready 1 .knot s ∧ (∀ x, s.rows.head? = some x → x.row ≠ (3#16).toNat) ∧ ∃ x ∈ s.rows, x.row = (3#16).toNat) ∧
    (let s := { panelAt 3 11000000 [row2] with
        panel := { Panel.reset with state := .finishing, netWidth := some 4, tailReached := true } }
     Ready 1 .knot s ∧ s.line.mode = .net ∧ s.rows = [row2] ∧ s.panel.state = .finishing ∧
       s.panel.tailReached = true) ∧
    (∀ n ∈ [95, 96],
      let s := (panelAt 3 11000000 [row2]).setMarkList 7 (List.replicate n (mark .slip 7 0 none 0))
      Ready 1 .knot s ∧ s.line.mode = .net ∧ s.rows = [row2] ∧ s.marksHeld = n) ∧
    (let s := panelAt 3 11000000 []
     (∀ x ∈ s.rows, x.row ≠ (2#16).toNat) ∧ s.panel.lastClosedRow = some 2 ∧ (2#16).toNat ≤ 2 ∧
       ¬ (3#16).toNat ≤ 2) := by
  refine ⟨by decide, by decide, ⟨by decide, ?_, by decide⟩, by decide, by decide, by decide⟩
  intro x hx
  cases hx
  decide

theorem witness_RowTimesOutAndTailPasses :
    (let s := panelAt 3 11124999 [row2]
     s.rows = [row2] ∧ s.line.drawTally / 256 < row2.timeoutDraw) ∧
    (let s := panelAt 3 11125000 [row2]
     s.rows = [row2] ∧ row2.timeoutDraw ≤ s.line.drawTally / 256 ∧ s.marksHeld + 2 ≤ 96) ∧
    (∀ n ∈ [95, 96],
      let s := (panelAt 3 11125000 [row2]).setMarkList 7 (List.replicate n (mark .slip 7 0 none 0))
      s.rows = [row2] ∧ row2.timeoutDraw ≤ s.line.drawTally / 256 ∧ s.marksHeld = n) ∧
    (let s := { panelAt 6 12250000 [] with
        panel := { Panel.reset with state := .finishing, netWidth := some 4, drawStart := 10000000, nextRow := 6 } }
     s.panel.tailReached = false ∧ 12250000 ≤ s.line.drawTally / 256 ∧ s.panel.state = .finishing ∧ s.rows = [] ∧
       ∀ e ∈ s.cuts.list, e.what.isCoil = false) ∧
    (let s := { panelAt 6 12250000 [] with
        panel := { Panel.reset with state := .finishing, netWidth := some 4, drawStart := 10000000, nextRow := 6 }
        cuts := { CutUnit.reset with list := [requestedCoil 7 .endCut 0] } }
     s.panel.state = .finishing ∧ s.rows = [] ∧ ∃ e ∈ s.cuts.list, e.what.isCoil = true) ∧
    (let s := panelAt 3 12249999 []
     s.panel.tailReached = false ∧ s.line.drawTally / 256 < 12250000) := by decide

set_option maxRecDepth 100000 in
theorem witness_CoilCutFallsDueAndRunsLate :
    (fullQueue.lane 6).plan.state = .watching ∧ (fullQueue.lane 6).state = .run ∧ fullQueue.line.mode = .rope ∧
      (fullQueue.lane 6).plan.planPos ≤ (fullQueue.lane 6).tally / 256 - fullQueue.line.dCut * 1000 ∧
      (∀ e ∈ fullQueue.cuts.list, e.what.isCoil = true) ∧
    (let s := { withLane 6 (running 2000001 0) with
        cuts := { CutUnit.reset with list := [] ++ requestedCoil 6 .normal 0 :: [requestedCoil 2 .normal 5] } }
     (requestedCoil 6 .normal 0).what.isCoilOf 6 = true ∧
       (∀ f ∈ [] ++ [requestedCoil 2 .normal 5], f.what.isCoilOf 6 = false) ∧
       (∀ d ∈ s.cuts.deferred, d.what.isCoilOf 6 = false) ∧
       0 + (s.recipe 0).overlengthMm * 1000 < (s.lane 6).tally / 256 - s.line.dCut * 1000 ∧
       s.cuts.becomesLate (CutWhat.isCoilOf 6) (fun due => decide (due + 2000000 < 2000001)) = true) ∧
    (let s := { besideAPanel 5 with line := { Line.reset with mode := .net, drawTally := 2000004 * 256 } }
     (∀ d ∈ s.cuts.dueCuts, d.what.isCoil = true ∨ d.what = .panel 0x0F) ∧
       3 + (s.recipe s.line.lineSlot).overlengthMm * 1000 < s.line.drawTally / 256 ∧
       s.cuts.list.map (·.late) = [false]) := by decide

theorem witness_CutDoneAcceptsACoil :
    (Ready 2 .pack State.reset ∧ 8 ≤ (8#8).toNat ∧ 8#8 ≠ 0x80 ∧
      (∀ e ∈ State.reset.cuts.list, e.what.isCoil = false → e.state = .held)) ∧
    (Ready 2 .pack atCoilCut ∧ atCoilCut.cuts.list.find? (fun e => e.what.isCoilOf 1 && e.state == .requested)
        = some (requestedCoil 1 .normal 220000000) ∧ atCoilCut.cuts.deferred = []) ∧
    (let s := { atCoilCut.modLane 1 (fun x => { x with pendingSlot := some 3 }) with
        cuts := { CutUnit.reset with
          list := [requestedCoil 1 .normal 220000000, requestedCoil 2 .normal 5]
          deferred := [{ what := .panel 0x0F, duePos := 9, late := false }] } }
     Ready 2 .pack s ∧ (s.lane 1).pendingSlot = some 3 ∧ (∀ d ∈ s.cuts.deferred, d.what.isCoil = false) ∧
       ∃ e ∈ s.cuts.list.eraseP (fun e => e.what.isCoilOf 1 && e.state == .requested), e.what.isCoil = true) ∧
    (let s := { withLane 7 (fun x => { x with state := .stopping }) with
        cuts := { CutUnit.reset with
          list := [requestedCoil 7 .endCut 0], deferred := [{ what := .panel 0x0F, duePos := 9, late := true }] } }
     Ready 2 .pack s ∧ s.cuts.list.find? (fun e => e.what.isCoilOf 7 && e.state == .requested)
        = some (requestedCoil 7 .endCut 0) ∧
       s.cuts.list.eraseP (fun e => e.what.isCoilOf 7 && e.state == .requested) = [] ∧
       s.cuts.queue.length + 1 < 8) := by decide

/-- A panel at its cut: its lanes in RUN under a pending line switch, a net of two lanes next, and lane 7's END cut
deferred. -/
def atPanelCut (leadIn : Nat) (halt : Bool) : State :=
  { ((withLane 0 (running 5000 0)).modLane 1 (running 5000 0)).modLane 7 fun x =>
      { x with state := .stopping, plan := { state := .deferredEnd, planPos := 4, reason := .endCut } } with
    line := { Line.reset with mode := .net, pendingLineSlot := some 1 }
    recipes := State.reset.recipes.set 1 { Recipe.default with netWidth := 2, leadInMm := leadIn }
    panel := { Panel.reset with state := .cutWait, netWidth := some 2, halt := halt }
    cuts := { CutUnit.reset with
      list := [{ what := .panel 0x03, duePos := 3, state := .requested, late := false }]
      deferred := [{ what := .coil 7 .endCut, duePos := 4, late := false }] } }

theorem witness_CutDoneAcceptsAPanel :
    (let s := besideAPanel 3
     Ready 2 .pack s ∧
       s.cuts.list.find? (fun e => !e.what.isCoil && e.state == .requested)
         = some { what := .panel 0x0F, duePos := 3, state := .requested, late := false } ∧
       s.rows = [] ∧ s.cuts.deferred = []) ∧
    (∀ leadIn ∈ [0, 500], ∀ halt ∈ [false, true],
      let s := atPanelCut leadIn halt
      Ready 2 .pack s ∧
        s.cuts.list.find? (fun e => !e.what.isCoil && e.state == .requested)
          = some { what := .panel 0x03, duePos := 3, state := .requested, late := false } ∧
        s.line.pendingLineSlot = some 1 ∧ (s.recipe 1).leadInMm = leadIn ∧ s.panel.halt = halt ∧
        (∀ l : LaneNo, l.val < (s.recipe 1).netWidth → (s.lane l).state = .run) ∧ s.rows = [] ∧
        s.cuts.list.eraseP (fun e => !e.what.isCoil && e.state == .requested) = [] ∧
        (∀ d ∈ s.cuts.deferred, d.what.isCoil = true) ∧ ∃ d ∈ s.cuts.deferred, d.what.isEndOf 7 = true) := by
  decide

theorem witness_ReleaseFreesAPlace :
    (Ready 2 .pack State.reset ∧ State.reset.cuts.queue = []) ∧
    (Ready 2 .pack fullQueue ∧ fullQueue.cuts.queue ≠ [] ∧ ∀ e ∈ fullQueue.cuts.list, e.state = .requested) ∧
    (let s := { fullQueue with
        cuts := { fullQueue.cuts with
          list := [requestedCoil 2 .normal 5] ++ [{ requestedCoil 6 .normal 8 with state := .held }] } }
     Ready 2 .pack s ∧ s.cuts.queue ≠ [] ∧ (∀ f ∈ [requestedCoil 2 .normal 5], f.state = .requested)) := by decide

/-- A lane in THREADING with a forward count in the queue. -/
def countingLane : State :=
  { withLane 0 (fun x => { x with state := .threading, tally := 100000, trim := 5 }) with
    pending := [.wheelCountForward 0] }

/-- The tally of lane 0 after a step, if the step goes on. -/
def tallyAfter (s : State) : Option Nat :=
  match step s with
  | .next t => some (t.lane 0).tally
  | .fault _ | .refused _ => none

theorem test_counting_lane_steps : tallyAfter countingLane = some 200000 := by decide

theorem witness_StepKeepsTalliesAndRanges : TallyLaw countingLane ∧ RangeLaw countingLane := by
  constructor
  · decide
  · refine ⟨by decide, by decide, by decide⟩

theorem witness_StepKeepsLaneAndCalibrationRanges : RangeLaw countingLane ∧ WorkRangeLaw countingLane := by
  refine ⟨⟨by decide, by decide, by decide⟩, by decide, by decide⟩

theorem witness_StepKeepsTheMap : MapLaw countingLane := by decide

theorem witness_StepKeepsTheMarkStore : MarkLaw countingLane := by decide

theorem witness_StepKeepsPlacesAndNumbers : PlacesLaw countingLane ∧ NumberLaw countingLane := by decide

theorem witness_StepKeepsTheTrim : TrimLaw countingLane := by decide

theorem witness_StepKeepsTheCutListAndTheRowList : LineLaw countingLane := by
  refine ⟨by decide, by decide, by decide⟩

theorem witness_StepKeepsThePortsClear : PortLaw countingLane := by decide

end Sys2Proof.Tests
end

section
/-! PROOFS. CLEAR_LANE, SET_MODE and MAP_LANE (01_lanes_and_positions.md R4, R9, R21, R192): what each service
answers, check by check, and what its accepted change leaves in the records. -/

namespace Sys2Proof.Machine

variable {s : State}

/-! ### Lanes -/

/-- Two changes of one lane are one change. -/
@[simp] theorem State.modLane_modLane (s : State) (l : LaneNo) (f g : Lane → Lane) :
    (s.modLane l f).modLane l g = s.modLane l fun x => g (f x) := by
  simp [State.modLane, State.setLane, State.lane]

theorem State.allIdle_iff (s : State) : s.allIdle = true ↔ ∀ l, (s.lane l).state = .idle := by
  have mem : ∀ l : LaneNo, l ∈ allLanes := by decide
  simp [State.allIdle, mem]

theorem State.allIdle_eq_false_iff (s : State) : s.allIdle = false ↔ ∃ l, (s.lane l).state ≠ .idle := by
  rw [← Bool.not_eq_true, s.allIdle_iff, not_forall]

theorem serveLane_range {b : Byte} (h : 8 ≤ b.toNat) (f : LaneNo → State → Served) (s : State) :
    serveLane [b] f s = refuse .range s := by
  simp [serveLane, byteAt, laneNo_none h]

theorem serveLane_ofNat (l : LaneNo) (f : LaneNo → State → Served) (s : State) :
    serveLane [BitVec.ofNat 8 l.val] f s = f l s := by
  simp [serveLane, byteAt]

/-! ### CLEAR_LANE -/

/-- What an accepted CLEAR_LANE writes, field by field, and the notice it raises (R21). -/
theorem clearLane_eq (l : LaneNo) (s : State) :
    clearLane l s = State.raise .laneState (laneBit l) (s.setLane l
      { s.lane l with
        state := .run, faultCause := none, slipRun := 0, limitStrike := false
        windowStart := (s.lane l).tally / 256, windowPulses := 0, capstanPulses := 0, periodIndex := 0
        highCount := 0, lowCount := 0 }) := by
  rw [clearLane, setLaneState, State.modLane_modLane]
  rfl

theorem serveClearLane_range {b : Byte} (h : 8 ≤ b.toNat) (s : State) :
    serveClearLane [b] s = refuse .range s := serveLane_range h _ s

theorem serveClearLane_refused {l : LaneNo}
    (h : (s.lane l).state ≠ .fault ∨ (s.lane l).faultCause = some .tallyLimit) :
    serveClearLane [BitVec.ofNat 8 l.val] s = refuse .state s := by
  rw [serveClearLane, serveLane_ofNat, if_neg]
  rintro ⟨hf, hc⟩
  exact h.elim (· hf) hc

theorem serveClearLane_accepted {l : LaneNo} (hf : (s.lane l).state = .fault)
    (hc : (s.lane l).faultCause ≠ some .tallyLimit) :
    serveClearLane [BitVec.ofNat 8 l.val] s = accept (clearLane l s) := by
  rw [serveClearLane, serveLane_ofNat, if_pos ⟨hf, hc⟩]

/-- Settles O26: each outcome of the service (R21), answered on the port. -/
theorem clearLaneReturnsAFaultedLane : Obligations.ClearLaneReturnsAFaultedLane := by
  intro s p b hr
  refine ⟨fun hb => ?range, fun l hl => ⟨fun h => ?state, fun hf hc => ?accepted⟩⟩
  case range => rw [exec_clearLane_ready b hr, serveClearLane_range hb]; rfl
  case state => subst hl; rw [exec_clearLane_ready _ hr, serveClearLane_refused h]; rfl
  case accepted =>
    subst hl
    rw [exec_clearLane_ready _ hr, serveClearLane_accepted hf hc, clearLane_eq]
    rfl

/-! ### SET_MODE -/

/-- The byte that names a mode (R174). -/
def modeByte (m : LineMode) : Byte :=
  match m with
  | .rope => 0x00#8
  | .net => 0x01#8

@[simp] theorem modeOf_modeByte (m : LineMode) : modeOf (modeByte m) = some m := by
  cases m <;> rfl

theorem modeOf_none {b : Byte} (h : 2 ≤ b.toNat) : modeOf b = none := by
  have h0 : b ≠ 0 := by rintro rfl; simp at h
  have h1 : b ≠ 1 := by rintro rfl; simp at h
  rw [modeOf, if_neg h0, if_neg h1]

theorem serveSetMode_range {b : Byte} (h : 2 ≤ b.toNat) (s : State) : serveSetMode [b] s = refuse .range s := by
  simp [serveSetMode, byteAt, modeOf_none h]

theorem serveSetMode_modeByte (m : LineMode) (s : State) :
    serveSetMode [modeByte m] s =
      if s.allIdle = false then refuse .state s else if m = s.line.mode then accept s
      else accept (changeMode m s) := by
  simp [serveSetMode, byteAt]

/-- A change of the mode touches the lanes' pending switches, the line record and the panel record only (R4). -/
theorem changeMode_frame (m : LineMode) (s : State) :
    { changeMode m s with lanes := s.lanes, line := s.line, panel := s.panel } = s := rfl

theorem changeMode_lane (m : LineMode) (s : State) (l : LaneNo) :
    (changeMode m s).lane l = { s.lane l with pendingSlot := none } :=
  s.mapLanes_lane (fun x => { x with pendingSlot := none }) l

/-- Settles O28: the checks in their order, and the records that a change of the mode returns to their start
(R4, R192). -/
theorem setModeChangesTheMode : Obligations.SetModeChangesTheMode := by
  intro s p b hr
  refine ⟨fun hb => ?range, fun m hm => ?mode⟩
  case range => rw [exec_setMode_ready b hr, serveSetMode_range hb]; rfl
  case mode =>
    obtain rfl : b = modeByte m := hm
    rw [exec_setMode_ready _ hr, serveSetMode_modeByte]
    refine ⟨fun hbusy => ?busy, fun hidle hsame => ?same, fun hidle hnew => ?change⟩
    case busy => rw [if_pos (s.allIdle_eq_false_iff.2 hbusy)]; rfl
    case same => rw [if_neg (by simp [s.allIdle_iff.2 hidle]), if_pos hsame]; rfl
    case change =>
      rw [if_neg (by simp [s.allIdle_iff.2 hidle]), if_neg hnew]
      exact ⟨changeMode m s, rfl, changeMode_lane m s, rfl, rfl, changeMode_frame m s⟩

/-! ### MAP_LANE -/

/-- The byte that names a target position, FFh for none (R9, R174). -/
def targetByte (target : Option PosNo) : Byte :=
  match target with
  | none => 0xFF#8
  | some k => BitVec.ofNat 8 k.val

@[simp] theorem mapTarget_targetByte (target : Option PosNo) : mapTarget (targetByte target) = some target := by
  cases target with
  | none => rfl
  | some k =>
    have h : BitVec.ofNat 8 k.val ≠ 0xFF#8 := by revert k; decide
    simp [mapTarget, targetByte, h]

theorem mapTarget_none {c : Byte} (h : 10 ≤ c.toNat) (hc : c ≠ 0xFF) : mapTarget c = none := by
  rw [mapTarget, if_neg hc, posNo_none h]
  rfl

theorem mapConflict_iff (s : State) (l : LaneNo) (target : Option PosNo) :
    mapConflict s l target = true ↔ ∃ k, target = some k ∧
      ((s.position k).inService = false ∨ ∃ m, (s.position k).mappedLane = some m ∧ m ≠ l) := by
  cases target with
  | none => simp [mapConflict]
  | some k => cases h : (s.position k).mappedLane <;> simp [mapConflict, h]

theorem unmapPosition_position (former : Option PosNo) (s : State) (k : PosNo) :
    (unmapPosition former s).position k =
      if former = some k then { s.position k with mappedLane := none } else s.position k := by
  cases former with
  | none => simp [unmapPosition]
  | some j => simp [unmapPosition, State.modPosition_position, eq_comm]

theorem mapPosition_position (target : Option PosNo) (l : LaneNo) (s : State) (k : PosNo) :
    (mapPosition target l s).position k =
      if target = some k then { s.position k with mappedLane := some l } else s.position k := by
  cases target with
  | none => simp [mapPosition]
  | some j => simp [mapPosition, State.modPosition_position, eq_comm]

/-- The lanes' view of the map after an accepted MAP_LANE: the lane has the target (R9). -/
theorem mapLane_lane (l : LaneNo) (target : Option PosNo) (s : State) (m : LaneNo) :
    (mapLane l target s).lane m = if m = l then { s.lane l with position := target } else s.lane m := by
  have h : (mapPosition target l (unmapPosition (s.lane l).position s)).lane m = s.lane m := by
    cases target <;> cases (s.lane l).position <;> rfl
  rw [mapLane, State.modLane_lane, h]
  split
  · next hm => rw [hm]
  · rfl

/-- The positions' view of the map after an accepted MAP_LANE to a new target: the target has the lane, and the
former position none (R9). -/
theorem mapLane_position {l : LaneNo} {target : Option PosNo} (hnew : target ≠ (s.lane l).position) (k : PosNo) :
    (mapLane l target s).position k =
      if target = some k then { s.position k with mappedLane := some l }
      else if (s.lane l).position = some k then { s.position k with mappedLane := none }
      else s.position k := by
  rw [mapLane, State.modLane_position, mapPosition_position, unmapPosition_position]
  by_cases ht : target = some k
  · rw [if_pos ht, if_pos ht, if_neg (ht ▸ hnew.symm)]
  · rw [if_neg ht, if_neg ht]

theorem mapLane_frame (l : LaneNo) (target : Option PosNo) (s : State) :
    { mapLane l target s with lanes := s.lanes, positions := s.positions } = s := by
  cases target <;> cases h : (s.lane l).position <;> rw [mapLane, h] <;> rfl

theorem serveMapLane_range {b c : Byte} (h : 8 ≤ b.toNat ∨ (10 ≤ c.toNat ∧ c ≠ 0xFF)) (s : State) :
    serveMapLane [b, c] s = refuse .range s := by
  obtain hb | ⟨hc, hff⟩ := h
  · simp [serveMapLane, byteAt, laneNo_none hb]
  · simp [serveMapLane, byteAt, mapTarget_none hc hff]

theorem serveMapLane_targetByte (l : LaneNo) (target : Option PosNo) (s : State) :
    serveMapLane [BitVec.ofNat 8 l.val, targetByte target] s =
      if (s.lane l).state ≠ .idle then refuse .state s
      else if mapConflict s l target then refuse .conflict s
      else if target = (s.lane l).position then accept s
      else accept (mapLane l target s) := by
  simp [serveMapLane, byteAt]

/-- Settles O29: the checks in their order, and both views of the map after a move (R9). -/
theorem mapLaneKeepsBothViews : Obligations.MapLaneKeepsBothViews := by
  intro s p b c hr
  refine ⟨fun h => ?range, fun l target hl hc => ?target⟩
  case range => rw [exec_mapLane_ready b c hr, serveMapLane_range h]; rfl
  case target =>
    obtain rfl : c = targetByte target := hc
    subst hl
    simp only [← mapConflict_iff]
    rw [exec_mapLane_ready _ _ hr, serveMapLane_targetByte]
    refine ⟨fun hbusy => ?busy, fun hidle hconf => ?conflict, fun hidle hfree hsame => ?same,
      fun hidle hfree hnew => ?move⟩
    case busy => rw [if_pos hbusy]; rfl
    case conflict => rw [if_neg (not_not.2 hidle), if_pos hconf]; rfl
    case same => rw [if_neg (not_not.2 hidle), if_neg hfree, if_pos hsame]; rfl
    case move =>
      rw [if_neg (not_not.2 hidle), if_neg hfree, if_neg hnew]
      exact ⟨mapLane l target s, rfl, mapLane_lane l target s, mapLane_position hnew, mapLane_frame l target s⟩

end Sys2Proof.Machine
end

section
/-! PROOFS. RELEASE_PACKAGE (08_cuts_and_packages.md R157): what a freed place does to the cut list (R143), and each
outcome of the service. -/

namespace Sys2Proof.Machine

variable {s : State}

/-! ### A freed place -/

/-- With no entry HELD the place remains free (R143). -/
theorem promoteHeld_of_forall_requested (h : ∀ e ∈ s.cuts.list, e.state = .requested) : promoteHeld s = s := by
  have hnone : s.cuts.list.find? (fun e => e.state == .held) = none :=
    List.find?_eq_none.2 fun e he => by simp [h e he]
  rw [promoteHeld, hnone]

/-- The oldest HELD entry, every older one being REQUESTED, takes the freed place with CUT_DUE (R143). -/
theorem promoteHeld_of_oldest_held {front back : List CutEntry} {e : CutEntry}
    (hlist : s.cuts.list = front ++ e :: back) (hfront : ∀ f ∈ front, f.state = .requested) (he : e.state = .held) :
    promoteHeld s = State.raise .cutDue e.what.lanes
      { s with cuts := { s.cuts with list := front ++ { e with state := .requested } :: back } } := by
  have holdest : s.cuts.list.find? (fun e => e.state == .held) = some e :=
    hlist ▸ List.find?_eq_some_iff_append.2 ⟨by simp [he], front, back, rfl, fun f hf => by simp [hfront f hf]⟩
  simp only [promoteHeld, holdest]
  rw [State.modCuts, hlist, promoteFirst_spec front back e hfront he]

/-! ### RELEASE_PACKAGE -/

theorem serveReleasePackage_empty (h : s.cuts.queue = []) : serveReleasePackage s = refuse .empty s := by
  rw [serveReleasePackage, h]

theorem serveReleasePackage_cons {x : Package} {rest : List Package} (h : s.cuts.queue = x :: rest) :
    serveReleasePackage s = accept (promoteHeld { s with cuts := { s.cuts with queue := rest } }) := by
  rw [serveReleasePackage, h]
  rfl

theorem serveReleasePackage_none_held {x : Package} {rest : List Package} (hqueue : s.cuts.queue = x :: rest)
    (hall : ∀ e ∈ s.cuts.list, e.state = .requested) :
    serveReleasePackage s = accept { s with cuts := { s.cuts with queue := rest } } :=
  (serveReleasePackage_cons hqueue).trans (congrArg accept (promoteHeld_of_forall_requested hall))

theorem serveReleasePackage_oldest_held {x : Package} {rest : List Package} {front back : List CutEntry}
    {e : CutEntry} (hqueue : s.cuts.queue = x :: rest) (hlist : s.cuts.list = front ++ e :: back)
    (hfront : ∀ f ∈ front, f.state = .requested) (he : e.state = .held) :
    serveReleasePackage s = accept (State.raise .cutDue e.what.lanes
      { s with cuts := { s.cuts with queue := rest, list := front ++ { e with state := .requested } :: back } }) :=
  (serveReleasePackage_cons hqueue).trans (congrArg accept (promoteHeld_of_oldest_held hlist hfront he))

/-- Settles O51: each outcome of the service (R157), answered on the port. -/
theorem releaseFreesAPlace : Obligations.ReleaseFreesAPlace := by
  intro s p hr
  rw [exec_releasePackage_ready hr]
  refine ⟨fun hempty => ?empty,
    fun x rest hqueue => ⟨fun hall => ?free, fun front back e hlist hfront he => ?promoted⟩⟩
  case empty => rw [serveReleasePackage_empty hempty]; rfl
  case free => rw [serveReleasePackage_none_held hqueue hall]; rfl
  case promoted =>
    rw [serveReleasePackage_oldest_held hqueue hlist hfront he]
    cases e.what <;> rfl

end Sys2Proof.Machine
end

section
/-! PROOFS. CLEAR_COUNTS (10_notices_stop_requests_and_output_lines.md R188): what a change of each lane of a set
leaves in the lane records, and what a transfer leaves that ends between a command and its parameters (R161, R164). -/

namespace Sys2Proof.Machine

variable {s : State} {p : PortNo}

/-! ### A change of each lane of a set -/

theorem mem_lanesOf_iff (set : LaneSet) (l : LaneNo) : l ∈ lanesOf set ↔ set.getLsbD l.val = true := by
  have mem : l ∈ allLanes := by revert l; decide
  simp [lanesOf, laneIn, mem]

theorem nodup_lanesOf (set : LaneSet) : (lanesOf set).Nodup := by
  have nodup : allLanes.Nodup := by decide
  exact nodup.filter _

/-- Each lane of a list without repetitions is changed once, and no other lane. -/
theorem forLanes_modLane_lane (f : Lane → Lane) (m : LaneNo) {ls : List LaneNo} (h : ls.Nodup) (s : State) :
    (forLanes ls (fun l t => t.modLane l f) s).lane m = if m ∈ ls then f (s.lane m) else s.lane m := by
  induction ls generalizing s with
  | nil => simp [forLanes]
  | cons l ls ih =>
    obtain ⟨hl, hls⟩ := List.nodup_cons.1 h
    have htail : (forLanes (l :: ls) (fun l t => t.modLane l f) s).lane m =
        if m ∈ ls then f ((s.modLane l f).lane m) else (s.modLane l f).lane m := ih hls (s.modLane l f)
    rw [htail, State.modLane_lane]
    by_cases hm : m = l
    · subst hm; simp [hl]
    · simp [hm]

theorem forLanes_modLane_frame (f : Lane → Lane) (ls : List LaneNo) (s : State) :
    { forLanes ls (fun l t => t.modLane l f) s with lanes := s.lanes } = s :=
  forLanes_keeps (fun t => { t with lanes := s.lanes }) (fun l t => t.modLane l f) (fun _ _ => rfl) ls s

/-! ### The service of CLEAR_COUNTS -/

/-- The counters of each lane of a set return to 0 (R188). -/
def clearCounts (set : LaneSet) (s : State) : State :=
  forLanes (lanesOf set) (fun l t => t.modLane l fun x => { x with counters := Counters.zero }) s

theorem serveClearCounts_eq (set : Byte) (s : State) : serveClearCounts [set] s = accept (clearCounts set s) := rfl

theorem clearCounts_lane (set : LaneSet) (s : State) (l : LaneNo) :
    (clearCounts set s).lane l =
      if set.getLsbD l.val then { s.lane l with counters := Counters.zero } else s.lane l := by
  rw [clearCounts, forLanes_modLane_lane _ l (nodup_lanesOf set)]
  simp only [mem_lanesOf_iff]

theorem clearCounts_frame (set : LaneSet) (s : State) : { clearCounts set s with lanes := s.lanes } = s :=
  forLanes_modLane_frame _ _ s

/-! ### A transfer that ends between a command and its parameters -/

/-- The port's record after a command byte that its role permits, in an open transfer (R161). -/
def Port.openedByByte (c : Command) (P : Port) : Port := P.byteDone.opened c.code .incomplete (firstPhase c)

@[simp] theorem Port.endTransfer_lastResult (P : Port) : P.endTransfer.lastResult = P.lastResult := by
  simp only [Port.endTransfer, Port.close, Port.break]
  split_ifs <;> rfl

theorem exec_commandByte_permitted {c : Command} (hc : c ≠ .readStatus) (hs : (s.port p).isWaiting = false)
    (ho : (s.port p).transferOpen = true) (hr : c.permits (s.port p).role = true) :
    exec (.commandByte p c.code) s = .next (s.modPort p (Port.openedByByte c)) := by
  have hidle : ((s.modPort p Port.byteDone).port p).isWaiting = false := by
    rw [State.modPort_port_self]; exact hs
  have htake : Port.takeByte ⟨true, c.code⟩ (s.port p).byteDone = (s.port p).openedByByte c :=
    takeCommand_permitted c hc _ hr
  calc exec (.commandByte p c.code) s
    _ = .next (byteInTransfer p true c.code s) := rfl
    _ = .next (arrive p ⟨true, c.code⟩ (s.modPort p Port.byteDone)) := by rw [byteInTransfer, if_pos ho]
    _ = .next (s.modPort p (Port.openedByByte c)) := by
      rw [arrive_idle hidle, State.modPort_modPort]
      exact congrArg _ (State.modPort_congr _ _ _ _ htake)

/-- With no step waiting at the port the end of its transfer touches that port only (R164). -/
theorem exec_transferEnd_idle (h : (s.port p).isWaiting = false) :
    exec (.transferEnd p) s = .next (s.modPort p Port.endTransfer) := by
  have hend : endTransfer p s = s.modPort p Port.endTransfer := by simp [endTransfer, Port.fieldStepWaits, h]
  exact congrArg _ hend

/-- A command that takes parameters, closed before any of them, has opened and closed at its port and no more
(R161, R164). -/
theorem execAll_commandByte_transferEnd {c : Command} (hc : c ≠ .readStatus) (hb : c.firstBytes ≠ 0)
    (hs : (s.port p).isWaiting = false) (ho : (s.port p).transferOpen = true)
    (hr : c.permits (s.port p).role = true) :
    execAll [.commandByte p c.code, .transferEnd p] s
      = .next (s.modPort p fun P => (P.openedByByte c).endTransfer) := by
  have hidle : ((s.modPort p (Port.openedByByte c)).port p).isWaiting = false := by
    simp [Port.openedByByte, Port.opened, Port.isWaiting, firstPhase, hb]
  simp only [execAll, exec_commandByte_permitted hc hs ho hr, exec_transferEnd_idle hidle, State.modPort_modPort]

/-- Settles O27: the served command clears the counters of the lanes named and nothing else (R188); closed before
its byte it ends INCOMPLETE (R164). -/
theorem clearCountsClearsTheCounters : Obligations.ClearCountsClearsTheCounters := by
  intro s p set hready
  refine ⟨?served, fun hopen => ?closed⟩
  case served =>
    rw [exec_clearCounts_ready set hready, serveClearCounts_eq]
    exact ⟨clearCounts set s, rfl, clearCounts_lane set s, clearCounts_frame set s⟩
  case closed =>
    obtain ⟨hquiet, -, hrole⟩ := hready
    have hrun := execAll_commandByte_transferEnd (c := .clearCounts) (by decide) (by decide) (hquiet p) hopen
      (by rw [hrole]; rfl)
    refine ⟨_, hrun, rfl, ?result, fun q hq => ?others⟩
    case result =>
      rw [State.modPort_port_self, Port.endTransfer_lastResult]
      rfl
    case others => rw [State.modPort_port, if_neg hq]

end Sys2Proof.Machine
end


section
/-! PROOFS. The laws of the device over a step, in two layers: a property of the records that every single update of a
record keeps (`Steady`) is kept by every operation of the block, and so by every step (`Kept`). -/

namespace Sys2Proof.Machine

/-! ### Single updates -/

/-- The records that the laws of the lanes, the marks and the packages speak of. -/
def State.records (s : State) :
    Vector Lane 8 × Vector Position 10 × Vector CalRecord 10 × Vector Recipe 4 × MarkStore × Line × CutUnit :=
  (s.lanes, s.positions, s.cals, s.recipes, s.marks, s.line, s.cuts)

/-- What the laws of the map, the tallies, the marks and the trim read of a lane. -/
def Lane.anchor (x : Lane) : LaneState × Option PosNo × Nat × Nat × SlotNo × Option SlotNo × Int :=
  (x.state, x.position, x.tally, x.coilStart, x.slot, x.pendingSlot, x.trim)

/-- A change of a lane that keeps its anchor and its ranges. -/
def Lane.Mild (f : Lane → Lane) : Prop :=
  ∀ x, (f x).anchor = x.anchor ∧ ∀ period, x.InRange period → (f x).InRange period

/-- A change of a calibration record that keeps its ranges. -/
def CalRecord.Mild (f : CalRecord → CalRecord) : Prop := ∀ c pc, c.InRange pc → (f c).InRange pc

/-- What a law must be kept by: the single updates of the records, each under the condition that the block tests
before it. -/
structure Steady (P : State → Prop) : Prop where
  records : ∀ s t : State, t.records = s.records → P s → P t
  mild : ∀ l f s, Lane.Mild f → P s → P (s.modLane l f)
  calMild : ∀ k f s, CalRecord.Mild f → P s → P (s.modCal k f)
  tally : ∀ l v s, v ≤ tallyCeiling ∨ v ≤ (s.lane l).tally → P s → P (s.modLane l fun x => { x with tally := v })
  drawTally : ∀ v s, v ≤ tallyCeiling ∨ v ≤ s.line.drawTally → P s → P { s with line := { s.line with drawTally := v } }
  laneState : ∀ l st s, st = .idle ∨ (s.lane l).state ≠ .idle →
    (st.running = true → (s.lane l).state.running = true) → (st = .run → (s.lane l).periodIndex = 0) →
    P s → P (s.modLane l fun x => { x with state := st })
  enterRun : ∀ l s, (s.lane l).state = .threading → P s →
    P (setLaneState l .run ((setStartTrim l s).modLane l Lane.restartWindow))
  startRecord : ∀ l s, (s.lane l).state = .idle → onServicePosition s l = true →
    (startRecipe s l).consistent = true → P s →
    P (setLaneState l .threading (s.modLane l (startRecord s.line.mode s.line.lineSlot)))
  trim : ∀ l v s, (s.activeRecipe l).trimMin ≤ v → v ≤ (s.activeRecipe l).trimMax → P s →
    P (s.modLane l fun x => { x with trim := v })
  countWindow : ∀ l b slip s, (s.lane l).state = .run → (s.lane l).periodIndex + 1 ≠ (s.activeRecipe l).period →
    P s → P (s.modLane l (countWindow (s.activeRecipe l) b slip))
  coilSwitch : ∀ isEnd l s, P s → P (afterCoilCut isEnd l (laneSwitch isEnd l s))
  lineSwitch : ∀ i s, (s.recipe i).consistent = true ∨ s.line.pendingLineSlot = some i → P s → P (lineSwitch i s)
  assignLane : ∀ l i s, (s.lane l).state = .idle → P s →
    P (s.modLane l fun x => { x with slot := i, pendingSlot := none })
  assignAtCut : ∀ t i s, (s.recipe i).consistent = true → P s → P (assignAtCut t i s)
  changeMode : ∀ m s, P s → P (changeMode m s)
  softResetJobs : ∀ s, P s → P (softResetJobs s)
  reset : ∀ straps lines s, P (fullReset straps lines s)
  mapLane : ∀ bs s, P s → P (serveMapLane bs s).state
  setGeometry : ∀ bs s, P s → P (serveSetGeometry bs s).state
  setFactor : ∀ bs s, P s → P (serveSetFactor bs s).state
  field : ∀ ctx bs s, P s → P (serveField ctx bs s).state
  calStart : ∀ bs s, P s → P (serveCalibrate bs s).state
  calFactor : ∀ k v s, 12800 ≤ v → v ≤ 512000 → P s → P (s.modPosition k fun x => { x with k := v })
  risingEdge : ∀ k s, (s.cal k).state = .passA → (s.cal k).started = true → P s →
    P (passACloseIfMet k (s.modCal k fun c => { c with edges := c.edges + 1 }))
  fallingEdge : ∀ k s, (s.cal k).state = .passB → P s →
    P (passBCloseIfMet k (s.modCal k fun c => { c with edges := c.edges + 1 }))
  handMark : ∀ m s, P s → P (handMark m s)
  extendZone : ∀ l i lw sense s, P s → P (s.setMarkList l ((s.markList l).modify i (extendZone lw sense)))
  closeMark : ∀ l extent s, P s → P (s.setMarkList l (closeSpliceIn extent (s.markList l)))
  cutLane : ∀ isEnd l s, P s → P (cutLane isEnd l s)
  cuts : ∀ f s, (f s.cuts).queue = s.cuts.queue → (f s.cuts).counter = s.cuts.counter →
    (f s.cuts).requested = s.cuts.requested → P s → P (s.modCuts f)
  joinCut : ∀ w due late s, P s → P (joinCut w due late s)
  takePackage : ∀ pkg lanes fits s, (∃ e ∈ s.cuts.list, fits e = true) → (∀ e, fits e = true → e.isRequested = true) →
    pkg.number = s.cuts.counter → P s → P (queuePackage pkg lanes (removeEntry fits s))
  release : ∀ s, P s → P (serveReleasePackage s).state

variable {P : State → Prop} {s : State}

/-! ### Updates that the laws do not see -/

theorem Steady.raise (h : Steady P) (k : NoticeKind) (ls : LaneSet) (hs : P s) : P (State.raise k ls s) :=
  h.records s _ rfl hs

theorem Steady.requestStop (h : Steady P) (r : StopReason) (ls : LaneSet) (hs : P s) : P (s.requestStop r ls) :=
  h.records s _ rfl hs

theorem Steady.port (h : Steady P) (p : PortNo) (f : Port → Port) (hs : P s) : P (s.modPort p f) :=
  h.records s _ rfl hs

theorem Steady.panel (h : Steady P) (f : Panel → Panel) (hs : P s) : P (s.modPanel f) := h.records s _ rfl hs

theorem Steady.useFree (h : Steady P) (n : Nat) (hs : P s) : P (s.useFree n) := h.records s _ rfl hs

theorem Steady.setLaneState (h : Steady P) (l : LaneNo) (st : LaneState)
    (hidle : st = .idle ∨ (s.lane l).state ≠ .idle) (hrun : st.running = true → (s.lane l).state.running = true)
    (hperiod : st = .run → (s.lane l).periodIndex = 0) (hs : P s) : P (setLaneState l st s) :=
  h.raise _ _ (h.laneState l st s hidle hrun hperiod hs)

theorem Steady.foldl {α : Type} (f : State → α → State) (hf : ∀ t x, P t → P (f t x)) (xs : List α)
    (hs : P s) : P (xs.foldl f s) := by
  induction xs generalizing s with
  | nil => exact hs
  | cons x xs ih => exact ih (hf s x hs)

theorem Steady.forLanes (f : LaneNo → State → State) (hf : ∀ l t, P t → P (f l t)) (ls : List LaneNo)
    (hs : P s) : P (forLanes ls f s) := foldl (fun t l => f l t) (fun t l => hf l t) ls hs

/-! ### Mild updates of a lane -/

theorem Lane.mild_plan (f : Lane → CoilPlan) : Lane.Mild fun x => { x with plan := f x } := fun _ => ⟨rfl, fun _ h => h⟩
theorem Lane.mild_faultCause (c : Option FaultCause) : Lane.Mild fun x => { x with faultCause := c } :=
  fun _ => ⟨rfl, fun _ h => h⟩
theorem Lane.mild_spliceStart (a : Option Nat) : Lane.Mild fun x => { x with spliceStart := a } :=
  fun _ => ⟨rfl, fun _ h => h⟩
theorem Lane.mild_limitStrike (b : Bool) : Lane.Mild fun x => { x with limitStrike := b } :=
  fun _ => ⟨rfl, fun _ h => h⟩
theorem Lane.mild_capture : Lane.Mild fun x => { x with lastRowTally := some x.um } := fun _ => ⟨rfl, fun _ h => h⟩
theorem Lane.mild_strike : Lane.Mild fun x => { x with trimLimited := true, limitStrike := true } :=
  fun _ => ⟨rfl, fun _ h => h⟩

theorem Lane.Mild.comp {f g : Lane → Lane} (hg : Lane.Mild g) (hf : Lane.Mild f) : Lane.Mild fun x => g (f x) :=
  fun x => ⟨(hg (f x)).1.trans (hf x).1, fun n h => (hg (f x)).2 n ((hf x).2 n h)⟩

theorem Lane.mild_clearPeriod : Lane.Mild Lane.clearPeriod := fun _ =>
  ⟨rfl, fun _ ⟨ht, hl, hp, _, hr, hs, hc⟩ =>
    ⟨ht, hl, hp, ⟨Nat.zero_le _, Nat.zero_le _, Nat.zero_le _⟩, fun h => (Nat.zero_le _).trans_lt (hr h), hs, hc⟩⟩

theorem Lane.mild_openWindow : Lane.Mild Lane.openWindow := fun _ =>
  ⟨rfl, fun _ ⟨ht, hl, _, hi, hr, hs, hc⟩ => ⟨ht, hl, ⟨Nat.zero_le _, Nat.zero_le _⟩, hi, hr, hs, hc⟩⟩

theorem Lane.mild_discardWindow : Lane.Mild Lane.discardWindow := fun x =>
  ⟨rfl, fun n h =>
    have ⟨ht, hl, _, hi, hr, hs, hc⟩ := (Lane.mild_clearPeriod x).2 n h
    ⟨ht, hl, ⟨Nat.zero_le _, Nat.zero_le _⟩, hi, hr, hs, hc⟩⟩

theorem Lane.mild_restartWindow : Lane.Mild Lane.restartWindow := Lane.mild_openWindow.comp Lane.mild_clearPeriod

theorem Lane.mild_lastTpm (v : Nat) (hv : v ≤ 65535) : Lane.Mild fun x => { x with lastTpm := some v } := fun _ =>
  ⟨rfl, fun _ ⟨ht, _, h⟩ => ⟨ht, hv, h⟩⟩

theorem Lane.mild_slipRun (f : Lane → Nat) (hf : ∀ x, f x ≤ 3) : Lane.Mild fun x => { x with slipRun := f x } :=
  fun _ => ⟨rfl, fun _ ⟨ht, hl, hp, hi, hr, ⟨_, hpr⟩, hc⟩ => ⟨ht, hl, hp, hi, hr, ⟨hf _, hpr⟩, hc⟩⟩

theorem Lane.mild_pitchRun (failed : Bool) :
    Lane.Mild fun x => { x with pitchRun := nextPitchRun failed x.pitchRun } :=
  fun _ => ⟨rfl, fun _ ⟨ht, hl, hp, hi, hr, ⟨hsr, _⟩, hc⟩ =>
    ⟨ht, hl, hp, hi, hr, ⟨hsr, by simp only [nextPitchRun]; split_ifs <;> omega⟩, hc⟩⟩

theorem countUp_le (n : Nat) : countUp n ≤ 65535 := Nat.min_le_left _ _

theorem Lane.mild_windowEnded (b : BandResult) (slip : Bool) :
    Lane.Mild fun x => { x with counters := x.counters.windowEnded b slip } :=
  fun _ => ⟨rfl, fun _ ⟨ht, hl, hp, hi, hr, hs, ⟨_, hh, hlo, hsp, hsl⟩⟩ =>
    ⟨ht, hl, hp, hi, hr, hs, ⟨countUp_le _, by
      refine ⟨?_, ?_, hsp, ?_⟩ <;> simp only [Counters.windowEnded] <;> split_ifs <;>
        first | exact countUp_le _ | assumption⟩⟩⟩

theorem Lane.mild_splices (start : Nat) : Lane.Mild fun x =>
    { x with spliceStart := some start, counters := { x.counters with splices := countUp x.counters.splices } } :=
  fun _ => ⟨rfl, fun _ ⟨ht, hl, hp, hi, hr, hs, ⟨hw, hh, hlo, _, hsl⟩⟩ =>
    ⟨ht, hl, hp, hi, hr, hs, ⟨hw, hh, hlo, countUp_le _, hsl⟩⟩⟩

theorem Lane.mild_zeroCounters : Lane.Mild fun x => { x with counters := Counters.zero } :=
  fun _ => ⟨rfl, fun _ ⟨ht, hl, hp, hi, hr, hs, _⟩ => ⟨ht, hl, hp, hi, hr, hs, by simp [Counters.zero]⟩⟩

theorem Lane.mild_windowPulses : Lane.Mild fun x => { x with windowPulses := min pulseCeiling (x.windowPulses + 1) } :=
  fun _ => ⟨rfl, fun _ ⟨ht, hl, ⟨_, hp⟩, h⟩ => ⟨ht, hl, ⟨Nat.min_le_left _ _, hp⟩, h⟩⟩

theorem Lane.mild_capstanPulses :
    Lane.Mild fun x => { x with capstanPulses := min pulseCeiling (x.capstanPulses + 1) } :=
  fun _ => ⟨rfl, fun _ ⟨ht, hl, ⟨hp, _⟩, h⟩ => ⟨ht, hl, ⟨hp, Nat.min_le_left _ _⟩, h⟩⟩

/-- An update of a lane sees the lane's present record only. -/
theorem State.modLane_congr (s : State) (l : LaneNo) {f g : Lane → Lane} (h : f (s.lane l) = g (s.lane l)) :
    s.modLane l f = s.modLane l g := by
  simp [State.modLane, h]

end Sys2Proof.Machine
end


section
/-! PROOFS. What each operation keeps of a law that the single updates keep (`Steady`), in the order of the model's
files: marks, calibration, cuts, twist, knots, packages, lanes, counts, services; and so what a step keeps. -/

namespace Sys2Proof.Machine

variable {P : State → Prop} {s : State}

/-! ### What the lane watchers leave of a lane's anchor -/

/-- The anchor of every lane. -/
def State.anchors (s : State) (l : LaneNo) :
    LaneState × Option PosNo × Nat × Nat × SlotNo × Option SlotNo × Int := (s.lane l).anchor

theorem state_of_anchors {s t : State} (h : t.anchors = s.anchors) (l : LaneNo) : (t.lane l).state = (s.lane l).state :=
  congrArg Prod.fst (congrFun h l)

theorem modLane_anchors (s : State) (l : LaneNo) {f : Lane → Lane} (hf : ∀ x, (f x).anchor = x.anchor) :
    (s.modLane l f).anchors = s.anchors := by
  funext m
  simp only [State.anchors, State.modLane_lane]
  split
  · exact hf _
  · rfl

@[simp] theorem handMark_anchors (m : Mark) (s : State) : (handMark m s).anchors = s.anchors := by
  unfold handMark
  split
  · exact modLane_anchors s _ fun _ => rfl
  · rfl

@[simp] theorem handMarks_anchors (ms : List Mark) (s : State) : (handMarks ms s).anchors = s.anchors := by
  unfold handMarks
  split
  · exact foldl_keeps State.anchors _ (fun t m => handMark_anchors m t) ms s
  · exact foldl_keeps State.anchors _ (fun t m => handMark_anchors m t) _ (s.useFree ms.length)

@[simp] theorem zoneStep_anchors (l : LaneNo) (lw : Nat) (sense : Option Sense) (s : State) :
    (zoneStep l lw sense s).anchors = s.anchors := by
  unfold zoneStep
  split
  · rfl
  · split
    · split
      · rfl
      · exact handMarks_anchors _ _
    · exact handMarks_anchors _ _

@[simp] theorem slipStep_anchors (l : LaneNo) (slip : Bool) (s : State) :
    (slipStep l slip s).anchors = s.anchors := by
  unfold slipStep
  split
  · rw [modLane_anchors _ l fun _ => by rfl, handMarks_anchors]
  · rw [modLane_anchors _ l fun _ => by rfl]

@[simp] theorem closeSplice_anchors (l : LaneNo) (s : State) : (closeSplice l s).anchors = s.anchors := by
  unfold closeSplice
  split
  · exact modLane_anchors _ l fun _ => rfl
  · rfl

@[simp] theorem leaveForFault_anchors (l : LaneNo) (b : Bool) (s : State) :
    (leaveForFault l b s).anchors = s.anchors := by
  unfold leaveForFault
  split
  · exact modLane_anchors s l fun x => by cases b <;> rfl
  · exact closeSplice_anchors l s
  all_goals rfl

theorem abortCal_lanes (l : LaneNo) (s : State) : (abortCal l s).lanes = s.lanes := by
  unfold abortCal
  split
  · rfl
  · split <;> rfl

@[simp] theorem abortCal_lane (l m : LaneNo) (s : State) : (abortCal l s).lane m = s.lane m :=
  congrArg (fun v : Vector Lane 8 => v[m]) (abortCal_lanes l s)

@[simp] theorem abortCal_anchors (l : LaneNo) (s : State) : (abortCal l s).anchors = s.anchors :=
  funext fun m => congrArg Lane.anchor (abortCal_lane l m s)

/-! ### Marks -/

theorem Steady.handMarks (h : Steady P) (ms : List Mark) (hs : P s) : P (handMarks ms s) := by
  unfold Machine.handMarks
  split
  · exact foldl _ (fun t m => h.handMark m t) ms hs
  · exact foldl _ (fun t m => h.handMark m t) _ (h.useFree _ hs)

/-! ### Calibration -/

theorem CalRecord.mild_done (r : CalResult) (cause : Option CalCause) :
    CalRecord.Mild fun c => { c with state := .done, result := some r, cause := cause } :=
  fun _ _ ⟨hn, ht, he, _, _⟩ => ⟨hn, ht, he, nofun, nofun⟩

theorem CalRecord.mild_passB (f g : CalRecord → Option _) :
    CalRecord.Mild fun c => { c with nA := f c, kA := g c, state := .passB, edges := 0, nRun := 0 } :=
  fun _ _ ⟨hn, ht, _, _, _⟩ => ⟨hn, ht, Nat.zero_le _, nofun, fun _ => Nat.zero_le _⟩

theorem CalRecord.mild_start : CalRecord.Mild fun c => { c with started := true, edges := 0, nRun := 0 } :=
  fun _ _ ⟨hn, ht, _, ha, _⟩ => ⟨hn, ht, Nat.zero_le _, fun h => (Nat.zero_le _).trans_lt (ha h), fun _ => Nat.zero_le _⟩

theorem Steady.calCount (h : Steady P) (k : PosNo) (d : Int) (hs : P s) : P (calCount k d s) := by
  unfold Machine.calCount
  split
  · exact h.calMild k _ s (fun _ _ hc => hc) hs
  · exact hs

theorem Steady.finishCal (h : Steady P) (k : PosNo) (r : CalResult) (cause : Option CalCause) (hs : P s) :
    P (finishCal k r cause s) :=
  h.raise _ _ (h.calMild k _ s (CalRecord.mild_done r cause) hs)

theorem Steady.abortCal (h : Steady P) (l : LaneNo) (hs : P s) : P (abortCal l s) := by
  unfold Machine.abortCal
  split
  · exact hs
  · split
    · exact h.finishCal _ _ _ hs
    · exact hs

theorem Steady.passACloseIfMet (h : Steady P) (k : PosNo) (hs : P s) : P (passACloseIfMet k s) := by
  unfold Machine.passACloseIfMet passAClose
  split
  · dsimp only
    split
    · exact h.finishCal _ _ _ (h.calMild k _ s (fun _ _ hc => hc) hs)
    · exact h.calMild k _ s (CalRecord.mild_passB _ _) hs
  · exact hs

/-- The close of pass B keeps what its updates of the record and the store of a factor in range keep. -/
theorem passBCloseIfMet_keeps (k : PosNo) (hcal : ∀ f t, CalRecord.Mild f → P t → P (t.modCal k f))
    (hfactor : ∀ v t, 12800 ≤ v → v ≤ 512000 → P t → P (t.modPosition k fun x => { x with k := v }))
    (hraise : ∀ ls t, P t → P (State.raise .cal ls t)) (hs : P s) : P (passBCloseIfMet k s) := by
  have hfinish : ∀ r cause t, P t → P (Machine.finishCal k r cause t) :=
    fun r cause t ht => hraise _ _ (hcal _ t (CalRecord.mild_done r cause) ht)
  have h1 : ∀ c, P (s.modCal k fun x => { x with nB := c }) := fun _ => hcal _ s (fun _ _ hc => hc) hs
  have h2 : ∀ c b m, P ((s.modCal k fun x => { x with nB := c }).modCal k fun x => { x with kB := b, k := m }) :=
    fun c _ _ => hcal _ _ (fun _ _ hc => hc) (h1 c)
  unfold passBCloseIfMet passBClose
  split
  · dsimp only
    split
    · exact hfinish _ _ _ (h1 _)
    · split
      · exact hfinish _ _ _ (h2 _ _ _)
      · next hm =>
        obtain ⟨hlo, hhi⟩ := not_or.1 hm
        split
        · exact hfinish _ _ _ (h2 _ _ _)
        · unfold calPass
          split
          · exact hfinish _ _ _ (h2 _ _ _)
          · exact hfinish _ _ _ (hcal _ _ (fun _ _ hc => hc)
              (hfactor _ _ (not_lt.1 hlo) (not_lt.1 hhi) (h2 _ _ _)))
  · exact hs

theorem Steady.passBCloseIfMet (h : Steady P) (k : PosNo) (hs : P s) : P (passBCloseIfMet k s) :=
  passBCloseIfMet_keeps k (fun f t => h.calMild k f t) (fun v t => h.calFactor k v t) (fun _ _ => h.raise _ _) hs

theorem Steady.calRising (h : Steady P) (k : PosNo) (hs : P s) : P (calRising k s) := by
  unfold Machine.calRising
  split
  · next hstate =>
    split
    · next hstarted => exact h.risingEdge k s (beq_iff_eq.1 hstate) hstarted hs
    · exact h.calMild k _ s CalRecord.mild_start hs
  · exact hs

theorem Steady.calFalling (h : Steady P) (k : PosNo) (hs : P s) : P (calFalling k s) := by
  unfold Machine.calFalling
  split
  · next hstate => exact h.fallingEdge k s (beq_iff_eq.1 hstate) hs
  · exact hs

/-! ### Cuts -/

/-- Changes of the entries that leave their states leave the number of REQUESTED ones. -/
theorem requested_map (u : CutUnit) (f : CutEntry → CutEntry) (ds : List DeferredCut) (hf : ∀ e, (f e).state = e.state) :
    ({ u with list := u.list.map f, deferred := ds } : CutUnit).requested = u.requested := by
  have hcomp : CutEntry.isRequested ∘ f = CutEntry.isRequested := funext fun e => by
    simp [CutEntry.isRequested, hf]
  simp [CutUnit.requested, List.filter_map, hcomp]

theorem Steady.requestIfLate (h : Steady P) (late : Bool) (w : CutWhat) (hs : P s) : P (requestIfLate late w s) := by
  unfold Machine.requestIfLate
  split
  · exact h.requestStop _ _ hs
  · exact hs

theorem Steady.setLate (h : Steady P) (sel : CutWhat → Bool) (hs : P s) : P (setLate sel s) :=
  h.cuts _ s rfl rfl
    (requested_map s.cuts _ _ fun e => by simp only [CutEntry.retest]; split <;> rfl) hs

theorem Steady.requestLate (h : Steady P) (ds : List DeferredCut) (hs : P s) :
    P (ds.foldl (fun t d => t.requestStop .cutLate d.what.lanes) s) :=
  foldl (fun t d => t.requestStop .cutLate d.what.lanes) (fun _ _ ht => h.requestStop _ _ ht) ds hs

theorem Steady.retestLate (h : Steady P) (sel : CutWhat → Bool) (hs : P s) : P (retestLate sel s) :=
  h.requestLate _ (h.setLate sel hs)

theorem Steady.defer (h : Steady P) (d : DeferredCut) (hs : P s) :
    P (s.modCuts fun u => { u with deferred := u.deferred ++ [d] }) := h.cuts _ s rfl rfl rfl hs

theorem Steady.cutFallsDue (h : Steady P) (w : CutWhat) (due : Nat) (hs : P s) : P (cutFallsDue w due s) := by
  unfold Machine.cutFallsDue
  refine h.requestIfLate _ _ ?_
  split
  · exact h.defer _ hs
  · exact h.joinCut _ _ _ s hs

theorem Steady.joinDeferredCut (h : Steady P) (d : DeferredCut) (hs : P s) : P (joinDeferredCut d s) := by
  have hjoin := h.joinCut d.what d.duePos d.late s hs
  unfold Machine.joinDeferredCut
  split
  · exact h.defer _ hs
  · dsimp only
    split
    · exact h.mild _ _ _ (Lane.mild_plan _) (h.useFree _ hjoin)
    all_goals exact hjoin

theorem Steady.joinDeferred (h : Steady P) (hs : P s) : P (joinDeferred s) :=
  foldl _ (fun _ d => h.joinDeferredCut d) _ (h.cuts _ s rfl rfl rfl hs)

theorem Steady.plan (h : Steady P) (l : LaneNo) (f : Lane → CoilPlan) (hs : P s) :
    P (s.modLane l fun x => { x with plan := f x }) := h.mild l _ s (Lane.mild_plan f) hs

theorem Steady.coilCutDueIfMet (h : Steady P) (l : LaneNo) (hs : P s) : P (coilCutDueIfMet l s) := by
  unfold Machine.coilCutDueIfMet
  split
  · exact h.cutFallsDue _ _ (h.plan l _ hs)
  · exact hs

theorem Steady.freshPlan (h : Steady P) (l : LaneNo) (hs : P s) : P (freshPlan l s) := h.plan l _ hs

theorem Steady.shortCoilTest (h : Steady P) (l : LaneNo) (pos : Nat) (hs : P s) : P (shortCoilTest l pos s) := by
  unfold Machine.shortCoilTest
  dsimp only
  split
  · exact h.coilCutDueIfMet l (h.plan l _ hs)
  · exact hs

theorem Steady.endCutConverts (h : Steady P) (l : LaneNo) (hs : P s) : P (endCutConverts l s) := by
  have h1 : P (s.modCuts fun u => { u with list := u.list.map (convertToEnd l) }) :=
    h.cuts _ s rfl rfl (requested_map s.cuts _ _ fun e => by simp only [convertToEnd]; split <;> rfl) hs
  unfold Machine.endCutConverts
  refine h.requestIfLate _ _ (h.setLate _ ?_)
  split
  · exact h.raise _ _ (h.plan l _ h1)
  · exact h.plan l _ h1

theorem Lane.mild_endPlan (deferred : Bool) (due : Nat) : Lane.Mild (endPlan deferred due) := by
  intro x
  unfold endPlan
  split
  · exact ⟨rfl, fun _ h => h⟩
  · exact ⟨rfl, fun _ h => h⟩

theorem Steady.endCutDue (h : Steady P) (l : LaneNo) (hs : P s) : P (endCutDue l s) := by
  unfold Machine.endCutDue
  split
  · exact h.endCutConverts l hs
  · exact h.cutFallsDue _ _ (h.mild l _ s (Lane.mild_endPlan _ _) hs)

theorem Steady.cutLateIfMet (h : Steady P) (c : CutName) (hs : P s) : P (cutLateIfMet c s) := by
  unfold Machine.cutLateIfMet
  refine h.requestLate _ (h.cuts _ s rfl rfl ?_ hs)
  exact requested_map s.cuts _ _ fun e => by split <;> rfl

/-! ### Twist -/

theorem Steady.closeSplice (h : Steady P) (l : LaneNo) (hs : P s) : P (closeSplice l s) := by
  unfold Machine.closeSplice
  split
  · exact h.mild l _ _ (Lane.mild_spliceStart none) (h.closeMark l _ s hs)
  · exact hs

theorem Steady.leaveForFault (h : Steady P) (l : LaneNo) (b : Bool) (hs : P s) : P (leaveForFault l b s) := by
  unfold Machine.leaveForFault
  split
  · refine h.mild l _ s ?_ hs
    cases b
    · exact Lane.mild_discardWindow
    · exact Lane.mild_clearPeriod
  · exact h.closeSplice l hs
  all_goals exact hs

/-- The entry into FAULT of a lane in RUN, SPLICING or FAULT. -/
theorem Steady.faultEntry (h : Steady P) (l : LaneNo) (cause : FaultCause) (b : Bool)
    (hrun : (s.lane l).state.running = true) (hs : P s) : P (faultEntry l cause b s) := by
  have hstate : ((Machine.leaveForFault l b s).lane l).state = (s.lane l).state :=
    state_of_anchors (leaveForFault_anchors l b s) l
  have hu : P (Machine.setLaneState l .fault ((Machine.abortCal l (Machine.leaveForFault l b s)).modLane l
      fun x => { x with faultCause := some cause })) := by
    refine h.setLaneState l .fault (.inr fun hidle => ?_) (fun _ => ?_) nofun
      (h.mild l _ _ (Lane.mild_faultCause _) (h.abortCal l (h.leaveForFault l b hs)))
    · simp only [State.modLane_lane_self, abortCal_lane, hstate] at hidle
      simp [hidle, LaneState.running] at hrun
    · simpa [hstate] using hrun
  unfold Machine.faultEntry
  dsimp only
  split
  · exact h.requestStop _ _ hu
  · exact hu

theorem Steady.zoneStep (h : Steady P) (l : LaneNo) (lw : Nat) (sense : Option Sense) (hs : P s) :
    P (zoneStep l lw sense s) := by
  unfold Machine.zoneStep
  split
  · exact hs
  · dsimp only
    split
    · split
      · exact h.extendZone _ _ _ _ s hs
      · exact h.handMarks _ hs
    · exact h.handMarks _ hs

theorem Steady.slipStep (h : Steady P) (l : LaneNo) (slip : Bool) (hs : P s) : P (slipStep l slip s) := by
  unfold Machine.slipStep
  split
  · exact h.mild l _ _ (Lane.mild_slipRun _ fun _ => Nat.min_le_left _ _) (h.handMarks _ hs)
  · exact h.mild l _ s (Lane.mild_slipRun _ fun _ => Nat.zero_le _) hs

/-- The decision at a period's last window, in a lane in RUN. -/
theorem Steady.periodDecision (h : Steady P) (l : LaneNo) (hrun : (s.lane l).state = .run)
    (hclear : P (s.modLane l Lane.clearPeriod)) : P (periodDecision l s) := by
  have hsplit : ∀ step, ((s.modLane l Lane.clearPeriod).modLane l fun y =>
        { y with trim := y.trim + step, limitStrike := false }) =
      ((s.modLane l Lane.clearPeriod).modLane l fun y => { y with trim := (s.lane l).trim + step }).modLane l
        fun y => { y with limitStrike := false } := fun step => by
    rw [State.modLane_modLane _ l _ fun y => { y with limitStrike := false }]
    exact State.modLane_congr _ l (by rw [State.modLane_lane_self]; rfl)
  have hactive : (s.modLane l Lane.clearPeriod).activeRecipe l = s.activeRecipe l := by
    simp [State.activeRecipe, Lane.clearPeriod]
  unfold Machine.periodDecision
  dsimp only
  split
  · exact h.mild l _ _ (Lane.mild_limitStrike _) hclear
  · split
    · next hlimits =>
      rw [hsplit]
      exact h.raise _ _ (h.mild l _ _ (Lane.mild_limitStrike false)
        (h.trim l _ _ (hactive ▸ hlimits.1) (hactive ▸ hlimits.2) hclear))
    · have hstrike := h.raise .trim (laneBit l) (h.mild l _ _ Lane.mild_strike hclear)
      split
      · refine h.faultEntry l _ _ ?_ hstrike
        simp [Lane.clearPeriod, hrun, LaneState.running]
      · exact hstrike

/-- A window counted into its period, in a lane in RUN. -/
theorem Steady.periodStep (h : Steady P) (l : LaneNo) (b : BandResult) (slip : Bool) (hrun : (s.lane l).state = .run)
    (hs : P s) : P (periodStep l b slip s) := by
  unfold Machine.periodStep
  dsimp only
  split
  · refine h.periodDecision l (by rw [State.modLane_lane_self]; exact hrun) ?_
    rw [State.modLane_modLane]
    exact h.mild l _ s Lane.mild_clearPeriod hs
  · next hperiod =>
    refine h.countWindow l b slip s hrun (fun heq => hperiod ?_) hs
    rw [State.modLane_lane_self]
    exact heq

theorem Steady.reopenWindow (h : Steady P) (l : LaneNo) (hs : P s) : P (reopenWindow l s) := by
  unfold Machine.reopenWindow
  split
  · exact h.mild l _ s Lane.mild_openWindow hs
  · exact hs

theorem Steady.windowEndAt (h : Steady P) (l : LaneNo) (k : PosNo) (hrun : (s.lane l).state = .run) (hs : P s) :
    P (windowEndAt l k s) := by
  have hend : ∀ t b slip, (t.lane l).state = .run → P t →
      P (if 3 ≤ (t.lane l).slipRun then Machine.faultEntry l .wheelSlip true t
        else Machine.reopenWindow l (Machine.periodStep l b slip t)) := by
    intro t b slip hstate ht
    split
    · exact h.faultEntry l _ _ (by rw [hstate]; rfl) ht
    · exact h.reopenWindow l (h.periodStep l _ _ hstate ht)
  refine hend _ _ _ ?_ (h.mild l _ _ (Lane.mild_windowEnded _ _)
    (h.slipStep l _ (h.zoneStep l _ _ (h.mild l _ s (Lane.mild_lastTpm _ (Nat.min_le_left _ _)) hs))))
  refine (state_of_anchors ?_ l).trans hrun
  rw [modLane_anchors _ l fun _ => by rfl, slipStep_anchors, zoneStep_anchors, modLane_anchors s l fun _ => by rfl]

theorem Steady.windowEnd (h : Steady P) (l : LaneNo) (hrun : (s.lane l).state = .run) (hs : P s) :
    P (windowEnd l s) := by
  unfold Machine.windowEnd
  split
  · exact h.windowEndAt l _ hrun hs
  · exact hs

theorem windowMet_run {l : LaneNo} (h : windowMet l s = true) : (s.lane l).state = .run := by
  simp only [windowMet, Bool.and_eq_true, beq_iff_eq] at h
  exact h.1

theorem Steady.windowEndIfMet (h : Steady P) (l : LaneNo) (hs : P s) : P (windowEndIfMet l s) := by
  unfold Machine.windowEndIfMet
  split
  · next hmet => exact h.windowEnd l (windowMet_run hmet) hs
  · exact hs

theorem spliceOverlongMet_splicing {l : LaneNo} (h : spliceOverlongMet l s = true) : (s.lane l).state = .splicing := by
  simp only [spliceOverlongMet, Bool.and_eq_true, beq_iff_eq] at h
  exact h.1

theorem Steady.spliceOverlongIfMet (h : Steady P) (l : LaneNo) (hs : P s) : P (spliceOverlongIfMet l s) := by
  unfold Machine.spliceOverlongIfMet
  split
  · next hmet => exact h.faultEntry l _ _ (by simp [spliceOverlongMet_splicing hmet, LaneState.running]) hs
  · exact hs

theorem Steady.spliceBegin (h : Steady P) (l : LaneNo) (hrun : (s.lane l).state = .run) (hs : P s) :
    P (spliceBegin l s) := by
  unfold Machine.spliceBegin
  dsimp only
  have h2 := h.handMark (spliceMark l (max (s.lane l).um (s.lane l).coilStart)) _
    (h.mild l _ _ (Lane.mild_splices (max (s.lane l).um (s.lane l).coilStart))
      (h.abortCal l (h.mild l _ s Lane.mild_discardWindow hs)))
  have hstate : ∀ m start, ((Machine.handMark m ((Machine.abortCal l (s.modLane l Lane.discardWindow)).modLane l fun x =>
      { x with spliceStart := some start, counters := { x.counters with splices := countUp x.counters.splices } })).lane l).state
      = .run := fun m start => by
    rw [state_of_anchors (handMark_anchors m _) l, State.modLane_lane_self, abortCal_lane, State.modLane_lane_self]
    exact hrun
  have h3 := h.setLaneState l .splicing (.inr (by rw [hstate]; nofun)) (fun _ => by rw [hstate]; rfl) nofun h2
  split
  · exact h.shortCoilTest l _ h3
  · exact h3

theorem Steady.spliceEnd (h : Steady P) (l : LaneNo) (hsp : (s.lane l).state = .splicing) (hs : P s) :
    P (spliceEnd l s) := by
  have hstate : (((Machine.closeSplice l s).modLane l Lane.restartWindow).lane l).state = .splicing := by
    rw [State.modLane_lane_self]
    exact (state_of_anchors (closeSplice_anchors l s) l).trans hsp
  refine h.setLaneState l .run (.inr (by rw [hstate]; nofun)) (fun _ => by rw [hstate]; rfl) (fun _ => ?_)
    (h.mild l _ _ Lane.mild_restartWindow (h.closeSplice l hs))
  rw [State.modLane_lane_self]
  rfl

/-! ### Knots -/

theorem Steady.feedCheck (h : Steady P) (r : Nat) (hs : P s) : P (feedCheck r s) := by
  unfold Machine.feedCheck
  split
  · exact hs
  · dsimp only
    have h2 := forLanes (fun l t => t.modLane l fun x =>
        { x with pitchRun := nextPitchRun ((failingLanes s r).contains l) x.pitchRun })
      (fun l t => h.mild l _ t (Lane.mild_pitchRun _)) (lanesOf s.panelLanes)
      (h.handMarks ((failingLanes s r).map (pitchMark s r)) hs)
    split
    · exact h2
    · exact h.requestStop _ _ h2

theorem Steady.captureLanes (h : Steady P) (hs : P s) : P (captureLanes s) :=
  forLanes _ (fun l t => h.mild l _ t Lane.mild_capture) _ hs

theorem Steady.panelEndTest (h : Steady P) (hs : P s) : P (panelEndTest s) := by
  unfold Machine.panelEndTest
  split
  · exact h.cutFallsDue _ _ (h.panel _ hs)
  · exact hs

theorem Steady.tailReachedIfMet (h : Steady P) (hs : P s) : P (tailReachedIfMet s) := by
  unfold Machine.tailReachedIfMet
  split
  · exact h.panelEndTest (h.panel _ hs)
  · exact hs

theorem Steady.rowJoins (h : Steady P) (r : Nat) (captured : List Nat) (fails : LaneSet) (hs : P s) :
    P (rowJoins r captured fails s) := h.records s _ rfl hs

theorem Steady.rowFallsDue (h : Steady P) (hs : P s) : P (rowFallsDue s) := by
  unfold Machine.rowFallsDue
  dsimp only
  have hc := h.captureLanes (h.feedCheck s.panel.nextRow hs)
  refine h.panelEndTest (h.panel _ ?_)
  split
  · exact h.rowJoins _ _ _ hc
  · exact h.raise _ _ (h.requestStop _ _ (h.panel _ (h.handMarks _ hc)))

theorem Steady.rowFallsDueIfMet (h : Steady P) (hs : P s) : P (rowFallsDueIfMet s) := by
  unfold Machine.rowFallsDueIfMet
  split
  · exact h.rowFallsDue hs
  · exact hs

theorem Steady.closeRow (h : Steady P) (row : RowRecord) (ms : List Mark) (count : Panel → Panel) (hs : P s) :
    P (closeRow row ms count s) :=
  h.panelEndTest (h.records (Machine.handMarks ms s) _ rfl (h.handMarks ms hs))

theorem Steady.rowTimeoutIfMet (h : Steady P) (hs : P s) : P (rowTimeoutIfMet s) := by
  unfold Machine.rowTimeoutIfMet
  split
  · exact hs
  · split
    · exact h.closeRow _ _ _ hs
    · exact hs

theorem Steady.rowKnotted (h : Steady P) (row : RowRecord) (tied : JunctionSet) (hs : P s) :
    P (rowKnotted row tied s) := h.closeRow _ _ _ hs

theorem Steady.openPanel (h : Steady P) (hs : P s) : P (openPanel s) := h.rowFallsDueIfMet (h.records s _ rfl hs)

theorem Steady.closePanel (h : Steady P) (hs : P s) : P (closePanel s) := by
  unfold Machine.closePanel
  split
  · exact h.panel _ hs
  · split
    · exact h.openPanel hs
    · exact h.panel _ hs

/-! ### Packages -/

theorem cutLane_cuts (isEnd : Bool) (l : LaneNo) (s : State) : (cutLane isEnd l s).cuts = s.cuts := rfl

theorem Steady.acceptCoil (h : Steady P) (l : LaneNo) (reason : CutReason)
    (hreq : ∃ e ∈ s.cuts.list, isRequestedCoil l e = true) (hs : P s) : P (acceptCoil l reason s) :=
  h.joinDeferred (h.coilSwitch _ l _ (h.takePackage _ _ _ _ hreq
    (fun _ he => (Bool.and_eq_true_iff.1 he).2) rfl (h.cutLane _ l s hs)))

theorem Steady.acceptPanel (h : Steady P) (lanes : LaneSet)
    (hreq : ∃ e ∈ s.cuts.list, isRequestedPanel e = true) (hs : P s) : P (acceptPanel lanes s) := by
  have hcuts : (Machine.forLanes (lanesOf lanes) (Machine.cutLane false) s).cuts = s.cuts :=
    forLanes_keeps State.cuts _ (fun l t => cutLane_cuts false l t) _ s
  have htaken : ∀ pkg, pkg.number = s.cuts.counter → P (queuePackage pkg lanes (removeEntry isRequestedPanel
      (Machine.forLanes (lanesOf lanes) (Machine.cutLane false) s))) := fun pkg hnumber =>
    h.takePackage _ _ _ _ (hcuts ▸ hreq) (fun _ he => (Bool.and_eq_true_iff.1 he).2) (hcuts ▸ hnumber)
      (forLanes _ (fun l t => h.cutLane false l t) _ hs)
  refine h.joinDeferred (h.closePanel ?_)
  unfold pendingLineSwitch
  split
  · exact htaken _ rfl
  · next slot hslot => exact h.lineSwitch slot _ (.inr hslot) (htaken _ rfl)

theorem Steady.serveCutDone (h : Steady P) (bs : List Byte) (hs : P s) : P (serveCutDone bs s).state := by
  unfold Machine.serveCutDone
  split
  · exact hs
  · next c _ =>
    split
    · exact hs
    · next e he =>
      have hmem := List.mem_of_find?_eq_some he
      have hfits : isRequestedFor c e = true := List.find?_some he
      simp only [accept_state, acceptCut]
      split
      · next l reason hwhat =>
        refine h.acceptCoil l reason ⟨e, hmem, ?_⟩ hs
        cases c <;> simp_all [isRequestedFor, isRequestedCoil, isRequestedPanel, CutWhat.isCoilOf, CutWhat.isCoil]
      · next lanes hwhat =>
        refine h.acceptPanel lanes ⟨e, hmem, ?_⟩ hs
        cases c <;> simp_all [isRequestedFor, isRequestedCoil, isRequestedPanel, CutWhat.isCoilOf, CutWhat.isCoil]

/-! ### Lanes -/

theorem threadingMet_threading {l : LaneNo} (h : threadingMet l s = true) : (s.lane l).state = .threading := by
  simp only [threadingMet, Bool.and_eq_true, beq_iff_eq] at h
  exact h.1

theorem Steady.threadingEndIfMet (h : Steady P) (l : LaneNo) (hs : P s) : P (threadingEndIfMet l s) := by
  unfold Machine.threadingEndIfMet threadingEnd
  split
  · next hmet =>
    have ht := h.enterRun l s (threadingMet_threading hmet) hs
    dsimp only
    split
    · exact h.coilCutDueIfMet l (h.freshPlan l ht)
    · exact ht
  · exact hs

/-- The service of a command with one lane number keeps what the lane's own service keeps. -/
theorem serveLane_keeps (bs : List Byte) (f : LaneNo → State → Served) (hf : ∀ l, P (f l s).state) (hs : P s) :
    P (serveLane bs f s).state := by
  unfold serveLane
  split
  · exact hs
  · exact hf _

theorem Steady.serveStartLane (h : Steady P) (bs : List Byte) (hs : P s) : P (serveStartLane bs s).state := by
  refine serveLane_keeps bs _ (fun l => ?_) hs
  split
  · exact hs
  · next hidle =>
    split
    · exact hs
    · next hservice =>
      split
      · exact hs
      · split
        · next hcons =>
          exact h.threadingEndIfMet l
            (h.startRecord l s (not_not.1 hidle) (Bool.not_eq_false _ ▸ hservice) hcons hs)
        · exact hs

theorem Steady.leaveForStop (h : Steady P) (l : LaneNo) (hs : P s) : P (leaveForStop l s) := by
  unfold Machine.leaveForStop
  split
  · exact h.mild l _ s Lane.mild_discardWindow hs
  · exact h.closeSplice l hs
  · exact h.mild l _ s (Lane.mild_faultCause _) hs
  all_goals exact hs

theorem leaveForStop_anchors (l : LaneNo) (s : State) : (leaveForStop l s).anchors = s.anchors := by
  unfold leaveForStop
  split
  · exact modLane_anchors s l fun _ => rfl
  · exact closeSplice_anchors l s
  · exact modLane_anchors s l fun _ => rfl
  all_goals rfl

theorem Steady.stopLane (h : Steady P) (l : LaneNo) (hidle : (s.lane l).state ≠ .idle) (hs : P s) :
    P (stopLane l s) := by
  refine h.endCutDue l (h.setLaneState l .stopping (.inr ?_) nofun nofun (h.abortCal l (h.leaveForStop l hs)))
  rwa [abortCal_lane, state_of_anchors (leaveForStop_anchors l s) l]

theorem Steady.serveStopLane (h : Steady P) (bs : List Byte) (hs : P s) : P (serveStopLane bs s).state := by
  refine serveLane_keeps bs _ (fun l => ?_) hs
  split
  · exact h.setLaneState l .idle (.inl rfl) nofun nofun hs
  case h_5 | h_6 => exact hs
  all_goals
    next hstate =>
    split
    · exact hs
    · exact h.stopLane l (by rw [hstate]; nofun) hs

theorem Steady.serveClearLane (h : Steady P) (bs : List Byte) (hs : P s) : P (serveClearLane bs s).state := by
  refine serveLane_keeps bs _ (fun l => ?_) hs
  split
  · next hfault =>
    have hmild : Lane.Mild fun x =>
        { x.restartWindow with faultCause := none, slipRun := 0, limitStrike := false } :=
      ((Lane.mild_limitStrike false).comp ((Lane.mild_slipRun _ fun _ => Nat.zero_le 3).comp
        (Lane.mild_faultCause none))).comp Lane.mild_restartWindow
    refine h.setLaneState l .run (.inr ?_) (fun _ => ?_) (fun _ => ?_) (h.mild l _ s hmild hs)
    · rw [State.modLane_lane_self]
      exact fun hidle => LaneState.noConfusion (hfault.1.symm.trans hidle)
    · rw [State.modLane_lane_self]
      exact congrArg LaneState.running hfault.1
    · rw [State.modLane_lane_self]
      rfl
  · exact hs

/-! ### Counts -/

theorem Steady.laneWatchers (h : Steady P) (l : LaneNo) (hs : P s) : P (laneWatchers l s) :=
  h.retestLate _ (h.coilCutDueIfMet l (h.spliceOverlongIfMet l (h.windowEndIfMet l (h.threadingEndIfMet l hs))))

theorem Steady.tallyLimit (h : Steady P) (l : LaneNo) (hs : P s) : P (tallyLimit l s) := by
  unfold Machine.tallyLimit
  split
  case h_1 hstate => exact h.faultEntry l _ _ (by rw [hstate]; rfl) hs
  case h_2 hstate => exact h.faultEntry l _ _ (by rw [hstate]; rfl) hs
  case h_3 =>
    split
    · exact hs
    · exact h.raise _ _ (h.mild l _ s (Lane.mild_faultCause _) hs)
  all_goals exact hs

theorem Steady.countPastCeiling (h : Steady P) (l : LaneNo) (hs : P s) : P (countPastCeiling l s) := by
  have ht := h.tally l tallyCeiling s (.inl le_rfl) hs
  unfold Machine.countPastCeiling
  dsimp only
  split
  · exact h.tallyLimit l ht
  · split
    · next hmet =>
      split
      · exact h.laneWatchers l (h.tallyLimit l (h.windowEnd l (windowMet_run hmet) (h.useFree 1 ht)))
      · exact h.laneWatchers l (h.tallyLimit l (h.useFree 1 ht))
    · exact h.laneWatchers l (h.tallyLimit l ht)

theorem Steady.laneCount (h : Steady P) (d : Direction) (kf : Nat) (l : LaneNo) (hs : P s) :
    P (laneCount d kf l s) := by
  unfold Machine.laneCount
  split
  · cases d with
    | forward =>
      simp only [laneForward]
      split
      · next hle => exact h.laneWatchers l (h.tally l _ s (.inl hle) hs)
      · exact h.countPastCeiling l hs
    | reverse =>
      simp only [laneReverse]
      split
      · exact hs
      · exact h.laneWatchers l (h.tally l _ s (.inr (Nat.sub_le _ kf)) hs)
  · exact hs

theorem atMappedLane_keeps (k : PosNo) (f : LaneNo → State → State) (hf : ∀ l, P (f l s)) (hs : P s) :
    P (atMappedLane k f s) := by
  unfold atMappedLane
  split
  · exact hs
  · exact hf _

theorem Steady.wheelCount (h : Steady P) (d : Direction) (k : PosNo) (hs : P s) : P (wheelCount d k s) := by
  have hc : P (Machine.calCount k (directionSign d) (s.modWheel k (pairStep d))) := h.calCount k _ (h.records s _ rfl hs)
  exact atMappedLane_keeps k _ (fun l => h.laneCount d _ l hc) hc

theorem Steady.tallyLimitIfMet (h : Steady P) (l : LaneNo) (hs : P s) : P (tallyLimitIfMet l s) := by
  unfold Machine.tallyLimitIfMet
  split
  · exact hs
  · split
    · exact h.countPastCeiling l hs
    · exact hs

theorem Steady.flyerPulse (h : Steady P) (l : LaneNo) (hs : P s) : P (flyerPulse l s) := by
  unfold Machine.flyerPulse
  split
  · exact h.mild l _ s Lane.mild_windowPulses hs
  · exact hs

theorem Steady.capstanPulse (h : Steady P) (l : LaneNo) (hs : P s) : P (capstanPulse l s) := by
  unfold Machine.capstanPulse
  split
  · exact h.mild l _ s Lane.mild_capstanPulses hs
  · exact hs

theorem Steady.drawRowEvents (h : Steady P) (hs : P s) : P (drawRowEvents s) := by
  unfold Machine.drawRowEvents
  split
  · split
    · exact h.rowTimeoutIfMet (h.rowFallsDue (h.useFree 1 hs))
    · exact h.rowFallsDue (h.rowTimeoutIfMet (h.useFree 1 hs))
  · exact h.rowFallsDueIfMet (h.rowTimeoutIfMet hs)

theorem Steady.drawCount (h : Steady P) (d : Direction) (hs : P s) : P (drawCount d s) := by
  have hle : drawAfter d s.line.drawTally s.line.kDraw ≤ tallyCeiling ∨
      drawAfter d s.line.drawTally s.line.kDraw ≤ s.line.drawTally := by
    cases d
    · exact .inl (Nat.min_le_left _ _)
    · exact .inr (Nat.sub_le _ _)
  have ht : P { s.modDraw (pairStep d) with
      line := { s.line with drawTally := drawAfter d s.line.drawTally s.line.kDraw } } :=
    h.drawTally _ (s.modDraw (pairStep d)) hle (h.records s _ rfl hs)
  exact h.retestLate _ (h.tailReachedIfMet (h.drawRowEvents ht))

/-! ### Services -/

theorem Steady.serveKnotDone (h : Steady P) (bs : List Byte) (hs : P s) : P (serveKnotDone bs s).state := by
  unfold Machine.serveKnotDone
  dsimp only
  split
  · exact hs
  · split
    · split
      · exact h.rowKnotted _ _ hs
      · split
        · exact hs
        · split <;> exact hs
    · split <;> exact hs

theorem Steady.servePanelStart (h : Steady P) (hs : P s) : P (servePanelStart s).state := by
  unfold Machine.servePanelStart
  split
  · exact hs
  · split
    · exact hs
    · split
      · exact h.openPanel hs
      · exact hs

theorem Steady.servePanelHalt (h : Steady P) (hs : P s) : P (servePanelHalt s).state := by
  unfold Machine.servePanelHalt
  split
  · exact h.panel (fun p => { p with halt := true }) hs
  · exact hs

theorem Steady.serveSetMode (h : Steady P) (bs : List Byte) (hs : P s) : P (serveSetMode bs s).state := by
  unfold Machine.serveSetMode
  split
  · exact hs
  · split
    · exact hs
    · split
      · exact hs
      · exact h.changeMode _ s hs

theorem Steady.serveAssignRecipe (h : Steady P) (bs : List Byte) (hs : P s) : P (serveAssignRecipe bs s).state := by
  unfold Machine.serveAssignRecipe
  split
  · next t slot now _ _ _ =>
    split
    · exact hs
    · split
      · exact hs
      · next hcons =>
        rw [Bool.not_eq_false] at hcons
        split
        · split
          · exact hs
          · next hnow =>
            cases t with
            | lane l =>
              have hidle : (s.lane l).state = .idle := by simpa [nowRefused] using hnow
              exact h.raise _ _ (h.assignLane l slot s hidle hs)
            | line => exact h.lineSwitch slot s (.inl hcons) hs
        · exact h.assignAtCut t slot s hcons hs
  · exact hs

theorem Steady.serveAckStop (h : Steady P) (bs : List Byte) (hs : P s) : P (serveAckStop bs s).state := by
  unfold Machine.serveAckStop
  dsimp only
  split
  · exact h.records s _ rfl hs
  · exact h.raise _ _ (h.records s _ rfl hs)

theorem Steady.serveForceLine (h : Steady P) (bs : List Byte) (hs : P s) : P (serveForceLine bs s).state := by
  unfold Machine.serveForceLine
  split
  · exact hs
  · split
    · exact hs
    · exact h.records s _ rfl hs

theorem Steady.softReset (h : Steady P) (p : PortNo) (hs : P s) : P (softReset p s) :=
  h.port _ _ (h.records (Machine.softResetJobs s) _ rfl (h.softResetJobs s hs))

/-- A law that every single update keeps is kept by every operation of the block. -/
theorem Steady.kept (h : Steady P) : Kept P where
  port _ p f := h.port p f
  turn s _ := h.records s _ rfl
  queue s _ := h.records s _ rfl
  reset straps lines s _ := h.reset straps lines s
  softReset p _ := h.softReset p
  startLane bs _ := h.serveStartLane bs
  stopLane bs _ := h.serveStopLane bs
  spliceBegin bs _ hs := serveLane_keeps bs _ (fun l => by
    split
    · next hrun => exact h.spliceBegin l hrun hs
    · exact hs) hs
  spliceEnd bs _ hs := serveLane_keeps bs _ (fun l => by
    split
    · next hsp => exact h.spliceEnd l hsp hs
    · exact hs) hs
  knotDone bs _ := h.serveKnotDone bs
  cutDone bs _ := h.serveCutDone bs
  setMode bs _ := h.serveSetMode bs
  setGeometry bs s := h.setGeometry bs s
  setFactor bs s := h.setFactor bs s
  mapLane bs s := h.mapLane bs s
  assignRecipe bs _ := h.serveAssignRecipe bs
  calibrate bs s := h.calStart bs s
  clearLane bs _ := h.serveClearLane bs
  ackStop bs _ := h.serveAckStop bs
  clearCounts bs _ := Steady.forLanes _ (fun l t => h.mild l _ t Lane.mild_zeroCounters) (lanesOf (byteAt bs 0))
  forceLine bs _ := h.serveForceLine bs
  panelStart _ := h.servePanelStart
  panelHalt _ := h.servePanelHalt
  releasePackage s := h.release s
  field ctx bs s := h.field ctx bs s
  threadingEnd l _ := h.threadingEndIfMet l
  windowEnd l _ := h.windowEndIfMet l
  spliceOverlong l _ := h.spliceOverlongIfMet l
  tallyLimit l _ := h.tallyLimitIfMet l
  coilCutDue l _ := h.coilCutDueIfMet l
  cutLate c _ := h.cutLateIfMet c
  rowFallsDue _ := h.rowFallsDueIfMet
  rowTimeout _ := h.rowTimeoutIfMet
  tailReached _ := h.tailReachedIfMet
  passAClose k _ := h.passACloseIfMet k
  passBClose k _ := h.passBCloseIfMet k
  wheelCount d k _ := h.wheelCount d k
  flyerPulse k _ hs := atMappedLane_keeps k _ (fun l => h.flyerPulse l hs) hs
  capstanRising k _ hs := h.calRising k (atMappedLane_keeps k _ (fun l => h.capstanPulse l hs) hs)
  capstanFalling k _ := h.calFalling k
  drawCount d _ := h.drawCount d
  bothLines d s hs := by cases d <;> exact h.records s _ rfl hs

end Sys2Proof.Machine
end


section
/-! PROOFS. The laws of the tallies, the ranges, the map, the marks and the package queue over a step (R8, R26, R32,
R80, R143, R152): none of them reads a lane's slot, trim or window, so a recipe switch and a window leave them, and each
is settled by the few updates that it reads. -/

namespace Sys2Proof.Machine

variable {P : State → Prop} {s t : State}

/-! ### What a recipe switch and a window leave -/

/-- What the laws of this file read. -/
def State.vitals (s : State) :=
  ((fun l => ((s.lane l).position, (s.lane l).tally, (s.lane l).coilStart)), s.positions, s.recipes, s.marks.lists,
    (s.line.drawTally, s.line.dKnot, s.line.dCut, s.line.kDraw), s.cuts)

@[simp] theorem raise_vitals (k : NoticeKind) (ls : LaneSet) (s : State) : (State.raise k ls s).vitals = s.vitals := rfl

/-- The state of every lane. -/
def State.laneStates (s : State) (l : LaneNo) : LaneState := (s.lane l).state

@[simp] theorem raise_laneStates (k : NoticeKind) (ls : LaneSet) (s : State) :
    (State.raise k ls s).laneStates = s.laneStates := rfl

/-- A change of a lane keeps its position, its tally and coil_start. -/
abbrev Lane.KeepsPost (f : Lane → Lane) : Prop :=
  ∀ x, (f x).position = x.position ∧ (f x).tally = x.tally ∧ (f x).coilStart = x.coilStart

theorem modLane_vitals (s : State) (l : LaneNo) {f : Lane → Lane}
    (hf : Lane.KeepsPost f := by exact fun _ => ⟨rfl, rfl, rfl⟩) :
    (s.modLane l f).vitals = s.vitals := by
  refine congrArg (·, _) (funext fun m => ?_)
  simp only [State.modLane_lane]
  split
  · obtain ⟨hp, ht, hc⟩ := hf (s.lane m)
    rw [hp, ht, hc]
  · rfl

theorem modLane_laneStates (s : State) (l : LaneNo) {f : Lane → Lane}
    (hf : ∀ x, (f x).state = x.state := by exact fun _ => rfl) :
    (s.modLane l f).laneStates = s.laneStates := by
  funext m
  simp only [State.laneStates, State.modLane_lane]
  split
  · exact hf _
  · rfl

theorem setStartTrim_vitals (l : LaneNo) (s : State) : (setStartTrim l s).vitals = s.vitals := by
  unfold setStartTrim
  dsimp only
  split
  · rfl
  · rw [raise_vitals, modLane_vitals]

theorem switchLane_vitals (l : LaneNo) (i : SlotNo) (s : State) : (switchLane l i s).vitals = s.vitals := by
  unfold switchLane
  dsimp only
  split
  · rw [modLane_vitals, setStartTrim_vitals, modLane_vitals]
  · rw [setStartTrim_vitals, modLane_vitals]
  · rw [setStartTrim_vitals, modLane_vitals]
  all_goals rw [modLane_vitals]

theorem laneSwitch_vitals (isEnd : Bool) (l : LaneNo) (s : State) : (laneSwitch isEnd l s).vitals = s.vitals := by
  unfold laneSwitch
  split
  · rfl
  · dsimp only
    rw [raise_vitals]
    split
    · rw [modLane_vitals, modLane_vitals]
    · rw [switchLane_vitals, modLane_vitals]

theorem setStartTrim_laneStates (l : LaneNo) (s : State) : (setStartTrim l s).laneStates = s.laneStates := by
  unfold setStartTrim
  dsimp only
  split
  · rfl
  · rw [raise_laneStates, modLane_laneStates]

theorem switchLane_laneStates (l : LaneNo) (i : SlotNo) (s : State) : (switchLane l i s).laneStates = s.laneStates := by
  unfold switchLane
  dsimp only
  split
  · rw [modLane_laneStates, setStartTrim_laneStates, modLane_laneStates]
  · rw [setStartTrim_laneStates, modLane_laneStates]
  · rw [setStartTrim_laneStates, modLane_laneStates]
  all_goals rw [modLane_laneStates]

theorem laneSwitch_laneStates (isEnd : Bool) (l : LaneNo) (s : State) : (laneSwitch isEnd l s).laneStates = s.laneStates := by
  unfold laneSwitch
  split
  · rfl
  · dsimp only
    rw [raise_laneStates]
    split
    · rw [modLane_laneStates, modLane_laneStates]
    · rw [switchLane_laneStates, modLane_laneStates]

theorem lineSwitch_vitals (i : SlotNo) (s : State) : (lineSwitch i s).vitals = s.vitals :=
  forLanes_keeps State.vitals (fun l t => switchLane l i t) (fun l t => switchLane_vitals l i t) _
    { s with line := { s.line with lineSlot := i, pendingLineSlot := none } }

theorem lineSwitch_laneStates (i : SlotNo) (s : State) : (lineSwitch i s).laneStates = s.laneStates :=
  forLanes_keeps State.laneStates (fun l t => switchLane l i t) (fun l t => switchLane_laneStates l i t) _
    { s with line := { s.line with lineSlot := i, pendingLineSlot := none } }

/-! ### Laws that read no slot, no trim and no window -/

/-- No lane of `t` is in use that is IDLE in `s`. -/
abbrev NoneStarted (s t : State) : Prop := ∀ l, (s.lane l).state = .idle → (t.lane l).state = .idle

theorem noneStarted_of_laneStates (h : t.laneStates = s.laneStates) : NoneStarted s t :=
  fun l hl => (congrFun h l).trans hl

/-- What such a law must be kept by. -/
structure Loose (P : State → Prop) : Prop where
  view : ∀ s t : State, t.vitals = s.vitals → NoneStarted s t → P s → P t
  tally : ∀ l v s, v ≤ tallyCeiling ∨ v ≤ (s.lane l).tally → P s → P (s.modLane l fun x => { x with tally := v })
  drawTally : ∀ v s, v ≤ tallyCeiling ∨ v ≤ s.line.drawTally → P s → P { s with line := { s.line with drawTally := v } }
  startRecord : ∀ l mode slot s, onServicePosition s l = true → P s →
    P (s.modLane l fun x => { startRecord mode slot x with state := .threading })
  softResetJobs : ∀ s, P s → P (softResetJobs s)
  reset : ∀ straps lines s, P (fullReset straps lines s)
  mapLane : ∀ bs s, P s → P (serveMapLane bs s).state
  setGeometry : ∀ bs s, P s → P (serveSetGeometry bs s).state
  setFactor : ∀ bs s, P s → P (serveSetFactor bs s).state
  field : ∀ ctx bs s, P s → P (serveField ctx bs s).state
  calFactor : ∀ k v s, 12800 ≤ v → v ≤ 512000 → P s → P (s.modPosition k fun x => { x with k := v })
  handMark : ∀ m s, P s → P (handMark m s)
  extendZone : ∀ l i lw sense s, P s → P (s.setMarkList l ((s.markList l).modify i (extendZone lw sense)))
  closeMark : ∀ l extent s, P s → P (s.setMarkList l (closeSpliceIn extent (s.markList l)))
  cutLane : ∀ isEnd l s, P s → P (cutLane isEnd l s)
  cuts : ∀ f s, (f s.cuts).queue = s.cuts.queue → (f s.cuts).counter = s.cuts.counter →
    (f s.cuts).requested = s.cuts.requested → P s → P (s.modCuts f)
  joinCut : ∀ w due late s, P s → P (joinCut w due late s)
  takePackage : ∀ pkg lanes fits s, (∃ e ∈ s.cuts.list, fits e = true) → (∀ e, fits e = true → e.isRequested = true) →
    pkg.number = s.cuts.counter → P s → P (queuePackage pkg lanes (removeEntry fits s))
  release : ∀ s, P s → P (serveReleasePackage s).state

/-- A change of a lane that keeps its place and starts no lane. -/
theorem Loose.lane (h : Loose P) (l : LaneNo) (f : Lane → Lane)
    (hidle : (s.lane l).state = .idle → (f (s.lane l)).state = .idle) (hs : P s)
    (hf : Lane.KeepsPost f := by exact fun _ => ⟨rfl, rfl, rfl⟩) : P (s.modLane l f) := by
  refine h.view s _ (modLane_vitals s l hf) (fun m hm => ?_) hs
  rw [State.modLane_lane]
  split
  · next heq => subst heq; exact hidle hm
  · exact hm

theorem Loose.mild (h : Loose P) (l : LaneNo) (f : Lane → Lane) (hf : Lane.Mild f) (hs : P s) :
    P (s.modLane l f) := by
  refine h.lane l f (fun hidle => (congrArg Prod.fst (hf (s.lane l)).1).trans hidle) hs (fun x => ?_)
  have hanchor := (hf x).1
  simp only [Lane.anchor, Prod.mk.injEq] at hanchor
  obtain ⟨-, hp, ht, hc, -⟩ := hanchor
  exact ⟨hp, ht, hc⟩

theorem Loose.raise (h : Loose P) (k : NoticeKind) (ls : LaneSet) (hs : P s) : P (State.raise k ls s) :=
  h.view s _ rfl (fun _ hl => hl) hs

theorem Loose.cal (h : Loose P) (k : PosNo) (f : CalRecord → CalRecord) (hs : P s) : P (s.modCal k f) :=
  h.view s _ rfl (fun _ hl => hl) hs

theorem Loose.steady (h : Loose P) : Steady P where
  records s t heq hs := by
    simp only [State.records, Prod.mk.injEq] at heq
    obtain ⟨hl, hp, -, hr, hm, hline, hc⟩ := heq
    refine h.view s t ?_ (fun l hl' => ?_) hs
    · simp only [State.vitals, State.lane, hl, hp, hr, hm, hline, hc]
    · rwa [State.lane, hl]
  mild l f _ := h.mild l f
  calMild k f _ _ := h.cal k f
  tally := h.tally
  drawTally := h.drawTally
  laneState l st s hidle _ _ hs :=
    h.lane l (fun x => { x with state := st }) (fun hs => hidle.elim id fun hne => absurd hs hne) hs
  enterRun l s hth hs := by
    have hstates : ((setStartTrim l s).modLane l Lane.restartWindow).laneStates = s.laneStates := by
      rw [modLane_laneStates, setStartTrim_laneStates]
    have hr : P ((setStartTrim l s).modLane l Lane.restartWindow) :=
      h.view s _ (by rw [modLane_vitals, setStartTrim_vitals]) (noneStarted_of_laneStates hstates) hs
    refine h.raise _ _ (h.lane l _ (fun hidle => ?_) hr)
    exact absurd ((congrFun hstates l).symm.trans hidle) (by rw [State.laneStates, hth]; nofun)
  startRecord l s _ hservice _ hs := by
    refine h.raise _ _ ?_
    rw [State.modLane_modLane]
    exact h.startRecord l _ _ s hservice hs
  trim l v s _ _ hs := h.lane l (fun x => { x with trim := v }) id hs
  countWindow l b slip s _ _ hs := h.lane l (countWindow (s.activeRecipe l) b slip) id hs
  coilSwitch isEnd l s hs := by
    have hsw : P (laneSwitch isEnd l s) :=
      h.view s _ (laneSwitch_vitals isEnd l s) (noneStarted_of_laneStates (laneSwitch_laneStates isEnd l s)) hs
    cases isEnd
    · show P (freshPlan l (laneSwitch false l s))
      exact h.mild l _ (Lane.mild_plan _) hsw
    · exact h.raise _ _ (h.lane l (fun x => { x with state := .idle }) (fun _ => rfl) hsw)
  lineSwitch i s _ := h.view s _ (lineSwitch_vitals i s) (noneStarted_of_laneStates (lineSwitch_laneStates i s))
  assignLane l i s _ hs := h.lane l (fun x => { x with slot := i, pendingSlot := none }) id hs
  assignAtCut t i s _ hs := by
    cases t with
    | lane l => exact h.lane l (fun x => { x with pendingSlot := some i }) id hs
    | line => exact h.view s _ rfl (fun _ hl => hl) hs
  changeMode m s hs := by
    refine h.view { s with line := { s.line with drawTally := 0 } } _ ?_ (fun l hl => ?_)
      (h.drawTally 0 s (.inl (Nat.zero_le _)) hs)
    · exact congrArg (·, _) (funext fun l => by rw [changeMode_lane]; rfl)
    · rw [changeMode_lane]
      exact hl
  softResetJobs := h.softResetJobs
  reset := h.reset
  mapLane := h.mapLane
  setGeometry := h.setGeometry
  setFactor := h.setFactor
  field := h.field
  calStart bs s hs := by
    unfold serveCalibrate
    split
    · exact hs
    · dsimp only
      split
      · exact hs
      · split
        · exact hs
        · split
          · rw [accept_state]
            exact h.cal _ _ hs
          · exact hs
  calFactor := h.calFactor
  risingEdge k s _ _ hs := by
    have hedge := h.cal k (fun c => { c with edges := c.edges + 1 }) hs
    unfold passACloseIfMet passAClose
    split
    · dsimp only
      split
      · exact h.raise _ _ (h.cal _ _ (h.cal _ _ hedge))
      · exact h.cal _ _ hedge
    · exact hedge
  fallingEdge k s _ hs := passBCloseIfMet_keeps k (fun f _ _ => h.cal k f) (fun v t => h.calFactor k v t)
    (fun _ _ => h.raise _ _) (h.cal k _ hs)
  handMark := h.handMark
  extendZone := h.extendZone
  closeMark := h.closeMark
  cutLane := h.cutLane
  cuts := h.cuts
  joinCut := h.joinCut
  takePackage := h.takePackage
  release := h.release

end Sys2Proof.Machine
end


section
/-! PROOFS. The laws of the tallies and the ranges (R26, R32, R34, R37, R48, R97) and of the map (R8) over a step. -/

namespace Sys2Proof.Machine

variable {s t : State}

/-! ### Tallies -/

theorem tallyLaw_of_alike (hlane : ∀ l, (t.lane l).tally ≤ tallyCeiling ∨ (t.lane l).tally ≤ (s.lane l).tally)
    (hline : t.line.drawTally ≤ tallyCeiling ∨ t.line.drawTally ≤ s.line.drawTally) (hs : TallyLaw s) : TallyLaw t :=
  ⟨fun l => (hlane l).elim id fun h => h.trans (hs.1 l), hline.elim id fun h => h.trans hs.2⟩

/-- A change of a lane keeps the law when the tally it leaves does. -/
theorem tallyLaw_modLane (l : LaneNo) (f : Lane → Lane)
    (hf : (f (s.lane l)).tally ≤ tallyCeiling ∨ (f (s.lane l)).tally ≤ (s.lane l).tally) (hs : TallyLaw s) :
    TallyLaw (s.modLane l f) := by
  refine tallyLaw_of_alike (s := s) (fun m => ?_) (.inr le_rfl) hs
  rw [State.modLane_lane]
  split
  · next h => subst h; exact hf
  · exact .inr le_rfl

/-- A service of MAP_LANE changes the positions of the lanes only. -/
theorem serveMapLane_lane (bs : List Byte) (s : State) (l : LaneNo) :
    ∃ k, (serveMapLane bs s).state.lane l = { s.lane l with position := k } := by
  unfold serveMapLane
  split
  · split
    · exact ⟨_, rfl⟩
    · split
      · exact ⟨_, rfl⟩
      · split
        · exact ⟨_, rfl⟩
        · rw [accept_state, mapLane_lane]
          split
          · next h => subst h; exact ⟨_, rfl⟩
          · exact ⟨(s.lane l).position, rfl⟩
  · exact ⟨_, rfl⟩

theorem serveMapLane_frame (bs : List Byte) (s : State) :
    { (serveMapLane bs s).state with lanes := s.lanes, positions := s.positions } = s := by
  unfold serveMapLane
  split
  · split
    · rfl
    · split
      · rfl
      · split
        · rfl
        · exact mapLane_frame _ _ s
  · rfl

/-- A field or an entry leaves every record but the positions and the recipes. -/
theorem serveField_frame (ctx : FieldContext) (bs : List Byte) (s : State) :
    { (serveField ctx bs s).state with positions := s.positions, recipes := s.recipes } = s := by
  cases ctx with
  | position k field => simp only [serveField, servePositionField]; split <;> rfl
  | recipe slot index => simp only [serveField, serveRecipeField]; split <;> rfl
  | pattern slot row => simp only [serveField, servePatternEntry]; split <;> rfl

theorem serveSetFactor_frame (bs : List Byte) (s : State) :
    { (serveSetFactor bs s).state with positions := s.positions } = s := by
  unfold serveSetFactor
  split
  · rfl
  · dsimp only
    split <;> rfl

theorem serveSetGeometry_frame (bs : List Byte) (s : State) :
    { (serveSetGeometry bs s).state with line := s.line } = s ∧
      (serveSetGeometry bs s).state.line.drawTally = s.line.drawTally := by
  unfold serveSetGeometry
  dsimp only
  split <;> exact ⟨rfl, rfl⟩

theorem softResetJobs_lane (s : State) (l : LaneNo) : (softResetJobs s).lane l = (s.lane l).softReset :=
  State.mapLanes_lane s Lane.softReset l

theorem fullReset_lane (straps : Byte) (lines : BitVec 22) (s : State) (l : LaneNo) :
    (fullReset straps lines s).lane l = Lane.reset (some (l.castLE (by decide))) := by
  fin_cases l <;> rfl

theorem handMark_lane_of (m : Mark) (s : State) (l : LaneNo) :
    ((handMark m s).lane l).tally = (s.lane l).tally ∧ ((handMark m s).lane l).coilStart = (s.lane l).coilStart ∧
      ((handMark m s).lane l).position = (s.lane l).position ∧ ((handMark m s).lane l).state = (s.lane l).state := by
  have h := congrFun (handMark_anchors m s) l
  simp only [State.anchors, Lane.anchor, Prod.mk.injEq] at h
  obtain ⟨hstate, hp, ht, hc, -⟩ := h
  exact ⟨ht, hc, hp, hstate⟩

theorem joinCut_frame (w : CutWhat) (due : Nat) (late : Bool) (s : State) :
    { joinCut w due late s with cuts := s.cuts, ports := s.ports } = s := by
  unfold joinCut
  split <;> rfl

theorem serveReleasePackage_frame (s : State) :
    { (serveReleasePackage s).state with cuts := s.cuts, ports := s.ports } = s := by
  unfold serveReleasePackage promoteHeld
  split
  · rfl
  · dsimp only [accept_state]
    split <;> rfl

/-- A change that leaves the lanes and the line keeps the law of the tallies. -/
theorem tallyLaw_of_frame {u : State} (hs : TallyLaw s) (hu : u = s) (hl : t.lanes = u.lanes) (hd : t.line = u.line) :
    TallyLaw t := by
  subst hu
  exact ⟨fun l => by simpa [State.lane, hl] using hs.1 l, by simpa [hd] using hs.2⟩

theorem tallyLaw_loose : Loose TallyLaw where
  view s t hv _ hs := by
    simp only [State.vitals, Prod.mk.injEq] at hv
    obtain ⟨hposts, -, -, -, ⟨hdraw, -⟩, -⟩ := hv
    exact tallyLaw_of_alike (fun l => .inr (by have := congrFun hposts l; simp only [Prod.mk.injEq] at this; omega))
      (.inr hdraw.le) hs
  tally l v s hv hs := tallyLaw_modLane l _ hv hs
  drawTally v s hv hs := tallyLaw_of_alike (s := s) (fun _ => .inr le_rfl) hv hs
  startRecord l _ _ s _ hs := tallyLaw_modLane l _ (.inl (Nat.zero_le _)) hs
  softResetJobs s hs :=
    tallyLaw_of_alike (s := s) (fun l => .inl (by rw [softResetJobs_lane]; exact Nat.zero_le _)) (.inl (Nat.zero_le _)) hs
  reset straps lines s :=
    ⟨fun l => by rw [fullReset_lane]; exact Nat.zero_le _, Nat.zero_le _⟩
  mapLane bs s hs := by
    have hline : (serveMapLane bs s).state.line = s.line := (congrArg State.line (serveMapLane_frame bs s) :)
    refine tallyLaw_of_alike (fun l => .inr ?_) (.inr (by rw [hline])) hs
    obtain ⟨k, hk⟩ := serveMapLane_lane bs s l
    rw [hk]
  setGeometry bs s hs := tallyLaw_of_alike (s := s)
    (fun l => .inr (by rw [State.lane, congrArg State.lanes (serveSetGeometry_frame bs s).1 |>.trans rfl]; rfl))
    (.inr (serveSetGeometry_frame bs s).2.le) hs
  setFactor bs s hs := tallyLaw_of_frame hs (serveSetFactor_frame bs s) rfl rfl
  field ctx bs s hs := tallyLaw_of_frame hs (serveField_frame ctx bs s) rfl rfl
  calFactor _ _ _ _ _ hs := hs
  handMark m s hs := tallyLaw_of_alike (s := s) (fun l => .inr (handMark_lane_of m s l).1.le)
    (.inr (by unfold handMark; split <;> rfl)) hs
  extendZone _ _ _ _ _ hs := hs
  closeMark _ _ _ hs := hs
  cutLane _ l s hs := tallyLaw_modLane l _ (.inr le_rfl) hs
  cuts _ _ _ _ _ hs := hs
  joinCut w due late s hs := tallyLaw_of_frame hs (joinCut_frame w due late s) rfl rfl
  takePackage _ _ _ _ _ _ _ hs := hs
  release s hs := tallyLaw_of_frame hs (serveReleasePackage_frame s) rfl rfl

/-! ### Ranges -/

theorem clampInt_bounds {lo hi : Int} (h : lo ≤ hi) (v : Int) : lo ≤ clampInt lo hi v ∧ clampInt lo hi v ≤ hi := by
  simp only [clampInt]; omega

theorem clampNat_bounds {lo hi : Nat} (h : lo ≤ hi) (v : Nat) : lo ≤ clampNat lo hi v ∧ clampNat lo hi v ≤ hi := by
  simp only [clampNat]; omega

theorem recipeRange_ordered (index : Nat) : (recipeRange index).lo ≤ (recipeRange index).hi := by
  obtain h | h := lt_or_ge index 29
  · exact (by decide : ∀ i : Fin 29, (recipeRange i).lo ≤ (recipeRange i).hi) ⟨index, h⟩
  · rw [recipeRange, List.getD_eq_default _ _ h]
    rfl

/-- The value stored in a field other than the junction set lies in the field's range (R97). -/
theorem storedFieldValue_bounds {index : Nat} (hindex : index ≠ 26) (v : Int) :
    (recipeRange index).lo ≤ storedFieldValue index v ∧ storedFieldValue index v ≤ (recipeRange index).hi := by
  rw [storedFieldValue, if_neg hindex]
  exact clampInt_bounds (recipeRange_ordered index) v

/-- Storing the value clamped into its field's range keeps every field of a recipe in range (R97). -/
theorem Recipe.inRange_withField {r : Recipe} (h : r.InRange) (index : Nat) (v : Int) :
    (r.withField index (storedFieldValue index v)).InRange := by
  have hbounds : index ≠ 26 → _ := fun hindex => storedFieldValue_bounds hindex v
  unfold Recipe.withField
  split
  case h_27 | h_30 => exact h
  all_goals
    have hv := hbounds (by decide)
    simp only [recipeRange, recipeRanges, unsignedField, List.getD_cons_zero, List.getD_cons_succ] at hv
    dsimp only [Recipe.InRange] at h ⊢
    omega

theorem Position.inRange_withField {x : Position} (h : x.InRange) (field : PositionField) (v : Nat) :
    (x.withField field (storedPositionValue field v)).InRange := by
  obtain ⟨hk, hc, hpc, hnp⟩ := h
  cases field with
  | inService => exact ⟨hk, hc, hpc, hnp⟩
  | cRef => exact ⟨hk, clampNat_bounds (by decide) v, hpc, hnp⟩
  | pc => exact ⟨hk, hc, clampNat_bounds (by decide) v, hnp⟩
  | np => exact ⟨hk, hc, hpc, clampNat_bounds (by decide) v⟩

theorem rangeLaw_modPosition (k : PosNo) (f : Position → Position) (hf : (s.position k).InRange → (f (s.position k)).InRange)
    (hs : RangeLaw s) : RangeLaw (s.modPosition k f) := by
  obtain ⟨hr, hp, hg⟩ := hs
  refine ⟨hr, fun j => ?_, hg⟩
  rw [State.modPosition_position]
  split
  · next h => subst h; exact hf (hp j)
  · exact hp j

theorem rangeLaw_setRecipe (i : SlotNo) (r : Recipe) (hr : (s.recipe i).InRange → r.InRange) (hs : RangeLaw s) :
    RangeLaw (s.setRecipe i r) := by
  obtain ⟨hrec, hp, hg⟩ := hs
  refine ⟨fun j => ?_, hp, hg⟩
  rw [State.setRecipe_recipe]
  split
  · exact hr (hrec i)
  · exact hrec j

/-- A service of MAP_LANE changes the mapped lanes of the positions and the positions of the lanes only. -/
theorem serveMapLane_position (bs : List Byte) (s : State) (k : PosNo) :
    ∃ m, (serveMapLane bs s).state.position k = { s.position k with mappedLane := m } := by
  unfold serveMapLane
  split
  · split
    · exact ⟨_, rfl⟩
    · split
      · exact ⟨_, rfl⟩
      · split
        · exact ⟨_, rfl⟩
        · rw [accept_state, mapLane, State.modLane_position, mapPosition_position, unmapPosition_position]
          split
          · split <;> exact ⟨_, rfl⟩
          · split <;> exact ⟨_, rfl⟩
  · exact ⟨_, rfl⟩

theorem fullReset_position (straps : Byte) (lines : BitVec 22) (s : State) (k : PosNo) :
    (fullReset straps lines s).position k = Position.reset (if h : k.val < 8 then some ⟨k.val, h⟩ else none) := by
  fin_cases k <;> rfl

theorem fullReset_recipe (straps : Byte) (lines : BitVec 22) (s : State) (i : SlotNo) :
    (fullReset straps lines s).recipe i = Recipe.default := by
  fin_cases i <;> rfl

/-- A change that leaves the recipes, the positions and the line keeps the law of the ranges. -/
theorem rangeLaw_of_frame {u : State} (hs : RangeLaw s) (hu : u = s) (hr : t.recipes = u.recipes)
    (hp : t.positions = u.positions) (hl : t.line = u.line) : RangeLaw t := by
  subst hu
  obtain ⟨hrec, hpos, hg⟩ := hs
  exact ⟨fun i => by simpa [State.recipe, hr] using hrec i, fun k => by simpa [State.position, hp] using hpos k,
    by rwa [hl]⟩

theorem Position.inRange_reset (mapped : Option LaneNo) : (Position.reset mapped).InRange :=
  (by decide : (Position.reset none).InRange)

theorem clampFactor_bounds (v : Nat) : 12800 ≤ clampFactor v ∧ clampFactor v ≤ 512000 :=
  clampNat_bounds (by decide) v

theorem rangeLaw_loose : Loose RangeLaw where
  view s t hv _ hs := by
    simp only [State.vitals, Prod.mk.injEq] at hv
    obtain ⟨-, hp, hr, -, ⟨-, hk, hc, hd⟩, -⟩ := hv
    obtain ⟨hrec, hpos, hg⟩ := hs
    exact ⟨fun i => by simpa [State.recipe, hr] using hrec i, fun k => by simpa [State.position, hp] using hpos k,
      by rwa [hk, hc, hd]⟩
  tally _ _ _ _ hs := hs
  drawTally _ _ _ hs := hs
  startRecord _ _ _ _ _ hs := hs
  softResetJobs _ hs := hs
  reset straps lines s := ⟨fun i => by rw [fullReset_recipe]; decide,
    fun k => by rw [fullReset_position]; exact Position.inRange_reset _,
    (by decide : Line.reset.dKnot ≤ 100000 ∧ Line.reset.dCut ≤ 100000 ∧
      12800 ≤ Line.reset.kDraw ∧ Line.reset.kDraw ≤ 512000)⟩
  mapLane bs s hs := by
    have hframe := serveMapLane_frame bs s
    have hrec : (serveMapLane bs s).state.recipes = s.recipes := (congrArg State.recipes hframe :)
    have hline : (serveMapLane bs s).state.line = s.line := (congrArg State.line hframe :)
    refine ⟨fun i => by rw [State.recipe, hrec]; exact hs.1 i, fun k => ?_, by rw [hline]; exact hs.2.2⟩
    obtain ⟨m, hm⟩ := serveMapLane_position bs s k
    rw [hm]
    exact hs.2.1 k
  setGeometry bs s hs := by
    unfold serveSetGeometry
    dsimp only
    split
    · exact hs
    · exact ⟨hs.1, hs.2.1, (clampNat_bounds (Nat.zero_le _) _).2, (clampNat_bounds (Nat.zero_le _) _).2,
        clampFactor_bounds _⟩
  setFactor bs s hs := by
    unfold serveSetFactor
    split
    · exact hs
    · dsimp only
      split
      · exact hs
      · refine rangeLaw_modPosition _ _ (fun ⟨hk, h⟩ => ⟨?_, h⟩) hs
        dsimp only
        split
        · exact hk
        · exact clampFactor_bounds _
  field ctx bs s hs := by
    cases ctx with
    | position k field =>
      simp only [serveField, servePositionField]
      split
      · exact hs
      · exact rangeLaw_modPosition _ _ (fun h => Position.inRange_withField h _ _) hs
    | recipe slot index =>
      simp only [serveField, serveRecipeField]
      split
      · exact hs
      · exact rangeLaw_setRecipe _ _ (fun h => Recipe.inRange_withField h _ _) hs
    | pattern slot row =>
      simp only [serveField, servePatternEntry]
      split
      · exact hs
      · exact rangeLaw_setRecipe _ _ (fun h => h) hs
  calFactor k v s hlo hhi hs := rangeLaw_modPosition k _ (fun ⟨_, h⟩ => ⟨⟨hlo, hhi⟩, h⟩) hs
  handMark m s hs := by
    unfold handMark
    split <;> exact hs
  extendZone _ _ _ _ _ hs := hs
  closeMark _ _ _ hs := hs
  cutLane _ _ _ hs := hs
  cuts _ _ _ _ _ hs := hs
  joinCut w due late s hs := rangeLaw_of_frame hs (joinCut_frame w due late s) rfl rfl rfl
  takePackage _ _ _ _ _ _ _ hs := hs
  release s hs := rangeLaw_of_frame hs (serveReleasePackage_frame s) rfl rfl rfl

/-- Settles O53: the tallies and the ranges are kept by every step (R26, R32, R34, R37, R48, R97). -/
theorem stepKeepsTalliesAndRanges : Obligations.StepKeepsTalliesAndRanges := by
  intro s t hstep
  exact ⟨tallyLaw_loose.steady.kept.step hstep, rangeLaw_loose.steady.kept.step hstep⟩

/-! ### The map -/

/-- The two views of the map, position by position and lane by lane. -/
theorem onServicePosition_iff (s : State) (l : LaneNo) :
    onServicePosition s l = true ↔ ∃ k, (s.lane l).position = some k ∧ (s.position k).inService = true := by
  unfold onServicePosition
  cases (s.lane l).position <;> simp

/-- A change that leaves both views of the map and starts no lane keeps the law of the map. -/
theorem mapLaw_of_alike (hlane : ∀ l, (t.lane l).position = (s.lane l).position) (hidle : NoneStarted s t)
    (hpos : ∀ k, (t.position k).mappedLane = (s.position k).mappedLane ∧
      (t.position k).inService = (s.position k).inService) (hs : MapLaw s) : MapLaw t := by
  obtain ⟨hviews, hservice⟩ := hs
  refine ⟨fun l k => by rw [hlane, (hpos k).1]; exact hviews l k, fun l hl => ?_⟩
  obtain ⟨k, hk, hin⟩ := (onServicePosition_iff s l).1 (hservice l fun h => hl (hidle l h))
  exact (onServicePosition_iff t l).2 ⟨k, (hlane l).trans hk, (hpos k).2.trans hin⟩

theorem mapLaw_modPosition (k : PosNo) (f : Position → Position)
    (hf : (f (s.position k)).mappedLane = (s.position k).mappedLane ∧
      (f (s.position k)).inService = (s.position k).inService) (hs : MapLaw s) : MapLaw (s.modPosition k f) := by
  refine mapLaw_of_alike (s := s) (fun _ => rfl) (fun _ h => h) (fun j => ?_) hs
  rw [State.modPosition_position]
  split
  · next h => subst h; exact hf
  · exact ⟨rfl, rfl⟩

/-- An accepted MAP_LANE keeps the law of the map: the target is in service and no other lane's, the lane IDLE
(R8, R9). -/
theorem mapLaw_mapLane {l : LaneNo} {target : Option PosNo} (hidle : (s.lane l).state = .idle)
    (hfree : mapConflict s l target = false) (hnew : target ≠ (s.lane l).position) (hs : MapLaw s) :
    MapLaw (mapLane l target s) := by
  obtain ⟨hviews, hservice⟩ := hs
  have htarget : ∀ k, target = some k → ∀ m, (s.position k).mappedLane = some m → m = l := by
    rintro k rfl m hm
    by_contra hne
    exact absurd ((mapConflict_iff s l (some k)).2 ⟨k, rfl, .inr ⟨m, hm, hne⟩⟩) (by simp [hfree])
  refine ⟨fun m k => ?_, fun m hm => ?_⟩
  · rw [mapLane_lane, mapLane_position hnew]
    by_cases hml : m = l
    · subst hml
      rw [if_pos rfl]
      split_ifs with htk hold
      · exact iff_of_true htk rfl
      · exact iff_of_false htk nofun
      · exact iff_of_false htk fun h => hold ((hviews m k).2 h)
    · rw [if_neg hml]
      split_ifs with htk hold
      · exact iff_of_false (fun h => hml (htarget k htk m ((hviews m k).1 h)))
          fun h => hml (Option.some_inj.1 h).symm
      · exact iff_of_false
          (fun h => hml (Option.some_inj.1 (((hviews m k).1 h).symm.trans ((hviews l k).1 hold)))) nofun
      · exact hviews m k
  · rw [mapLane_lane] at hm
    have hml : m ≠ l := by rintro rfl; simp [hidle] at hm
    rw [if_neg hml] at hm
    obtain ⟨k, hk, hin⟩ := (onServicePosition_iff s m).1 (hservice m hm)
    have htk : target ≠ some k := fun h => hml (htarget k h m ((hviews m k).1 hk))
    have hold : (s.lane l).position ≠ some k := fun h =>
      hml (Option.some_inj.1 (((hviews m k).1 hk).symm.trans ((hviews l k).1 h)))
    refine (onServicePosition_iff _ m).2 ⟨k, ?_, ?_⟩
    · rw [mapLane_lane, if_neg hml, hk]
    · rw [mapLane_position hnew, if_neg htk, if_neg hold, hin]

theorem mapLaw_loose : Loose MapLaw where
  view s t hv hidle hs := by
    simp only [State.vitals, Prod.mk.injEq] at hv
    obtain ⟨hposts, hp, -⟩ := hv
    refine mapLaw_of_alike (fun l => ?_) hidle (fun k => by simp [State.position, hp]) hs
    have := congrFun hposts l
    simp only [Prod.mk.injEq] at this
    exact this.1
  tally l v s _ hs := by
    refine mapLaw_of_alike (s := s) (fun m => ?_) (fun m hm => ?_) (fun _ => ⟨rfl, rfl⟩) hs <;>
      rw [State.modLane_lane] <;> split <;> trivial
  drawTally _ _ _ hs := hs
  startRecord l mode slot s hservice hs := by
    obtain ⟨hviews, hinuse⟩ := hs
    have hlane : ∀ m, ((s.modLane l fun x => { startRecord mode slot x with state := .threading }).lane m).position =
        (s.lane m).position := fun m => by
      rw [State.modLane_lane]
      split <;> rfl
    refine ⟨fun m k => by rw [hlane]; exact hviews m k, fun m hm => ?_⟩
    have hon : onServicePosition s m = true := by
      by_cases h : m = l
      · subst h; exact hservice
      · rw [State.modLane_lane, if_neg h] at hm
        exact hinuse m hm
    obtain ⟨k, hk, hin⟩ := (onServicePosition_iff s m).1 hon
    exact (onServicePosition_iff _ m).2 ⟨k, (hlane m).trans hk, hin⟩
  softResetJobs s hs := mapLaw_of_alike (s := s) (fun l => by rw [softResetJobs_lane]; rfl)
    (fun l _ => by rw [softResetJobs_lane]; rfl) (fun _ => ⟨rfl, rfl⟩) hs
  reset straps lines s := by
    refine ⟨fun l k => ?_, fun l hl => ?_⟩
    · rw [fullReset_lane, fullReset_position]
      revert l k
      decide
    · rw [fullReset_lane] at hl
      exact absurd rfl hl
  mapLane bs s hs := by
    unfold serveMapLane
    split
    · split
      · exact hs
      · next hidle =>
        split
        · exact hs
        · next hfree =>
          split
          · exact hs
          · next hnew => exact mapLaw_mapLane (not_not.1 hidle) (by simpa using hfree) hnew hs
    · exact hs
  setGeometry bs s hs := by
    unfold serveSetGeometry
    dsimp only
    split <;> exact hs
  setFactor bs s hs := by
    unfold serveSetFactor
    split
    · exact hs
    · dsimp only
      split
      · exact hs
      · exact mapLaw_modPosition _ _ ⟨rfl, rfl⟩ hs
  field ctx bs s hs := by
    cases ctx with
    | position k field =>
      simp only [serveField, servePositionField]
      split
      · exact hs
      · next hok =>
        cases field with
        | inService =>
          obtain ⟨hviews, hservice⟩ := hs
          refine ⟨fun l j => ?_, fun l hl => ?_⟩
          · rw [State.modPosition_position]
            split <;> exact hviews l j
          · obtain ⟨j, hj, hin⟩ := (onServicePosition_iff s l).1 (hservice l hl)
            refine (onServicePosition_iff _ l).2 ⟨j, hj, ?_⟩
            rw [State.modPosition_position]
            split
            · next heq =>
              subst heq
              have hused : mappedInUse s j = true := by
                rw [mappedInUse, (hviews l j).1 hj]
                exact bne_iff_ne.2 hl
              by_contra hzero
              refine hok ?_
              simp_all [positionFieldRefused, Position.withField, storedPositionValue]
            · exact hin
        | cRef | pc | np => exact mapLaw_modPosition _ _ ⟨rfl, rfl⟩ hs
    | recipe slot index =>
      simp only [serveField, serveRecipeField]
      split <;> exact hs
    | pattern slot row =>
      simp only [serveField, servePatternEntry]
      split <;> exact hs
  calFactor k v s _ _ hs := mapLaw_modPosition k _ ⟨rfl, rfl⟩ hs
  handMark m s hs := by
    refine mapLaw_of_alike (s := s) (fun l => (handMark_lane_of m s l).2.2.1)
      (fun l hl => (handMark_lane_of m s l).2.2.2.trans hl) (fun k => ?_) hs
    unfold handMark
    split <;> exact ⟨rfl, rfl⟩
  extendZone _ _ _ _ _ hs := hs
  closeMark _ _ _ hs := hs
  cutLane isEnd l s hs := by
    refine mapLaw_of_alike (s := s) (fun m => ?_) (fun m hm => ?_) (fun _ => ⟨rfl, rfl⟩) hs <;>
      rw [cutLane, State.modLane_lane] <;> split <;> trivial
  cuts _ _ _ _ _ hs := hs
  joinCut w due late s hs := by
    unfold joinCut
    split <;> exact hs
  takePackage _ _ _ _ _ _ _ hs := hs
  release s hs := by
    unfold serveReleasePackage promoteHeld
    split
    · exact hs
    · dsimp only [accept_state]
      split <;> exact hs

/-- Settles O54: both views of the map and the lanes in use on positions in service are kept by every step (R8). -/
theorem stepKeepsTheMap : Obligations.StepKeepsTheMap := fun _ _ hs hstep => mapLaw_loose.steady.kept.step hstep hs

end Sys2Proof.Machine
end


section
/-! PROOFS. The law of the mark store over a step (05_the_mark_store.md R80): the pool's bound, and every list of its
own lane, in order and not behind coil_start. -/

namespace Sys2Proof.Machine

variable {s t : State}

/-! ### One list -/

/-- The law of one lane's list. -/
abbrev ListLaw (l : LaneNo) (coilStart : Nat) (ms : List Mark) : Prop :=
  ms.Pairwise (fun m n => m.position ≤ n.position) ∧ ∀ m ∈ ms, m.lane = l ∧ coilStart ≤ m.position

/-- The law reads a mark's lane and position only. -/
theorem listLaw_congr {l : LaneNo} {c : Nat} {ms ns : List Mark}
    (h : ns.map (fun m => (m.lane, m.position)) = ms.map fun m => (m.lane, m.position)) (hms : ListLaw l c ms) :
    ListLaw l c ns := by
  have key : ∀ xs : List Mark, ListLaw l c xs ↔
      (xs.map fun m => (m.lane, m.position)).Pairwise (fun a b => a.2 ≤ b.2) ∧
        ∀ a ∈ xs.map (fun m => (m.lane, m.position)), a.1 = l ∧ c ≤ a.2 := fun xs => by
    simp [ListLaw, List.pairwise_map]
  rw [key, h, ← key]
  exact hms

theorem modify_extendZone_map (lw : Nat) (sense : Sense) (i : Nat) (ms : List Mark) :
    (ms.modify i (extendZone lw sense)).map (fun m => (m.lane, m.position)) =
      ms.map fun m => (m.lane, m.position) := by
  induction ms generalizing i with
  | nil => simp
  | cons x xs ih => cases i <;> simp_all [extendZone]

theorem closeSpliceIn_map (extent : Nat) (ms : List Mark) :
    (closeSpliceIn extent ms).map (fun m => (m.lane, m.position)) = ms.map fun m => (m.lane, m.position) := by
  rw [closeSpliceIn, List.map_map]
  refine List.map_congr_left fun m _ => ?_
  simp only [Function.comp]
  split <;> rfl

/-- A mark not behind coil_start joins its lane's list in order (R81). -/
theorem listLaw_insertMark {l : LaneNo} {c : Nat} {ms : List Mark} {m : Mark} (hl : m.lane = l) (hc : c ≤ m.position)
    (h : ListLaw l c ms) : ListLaw l c (insertMark m ms) := by
  obtain ⟨front, back, rfl, hins, hfront, hback⟩ := insertMark_spec m ms
  obtain ⟨hsorted, hmem⟩ := h
  obtain ⟨hf, hb, hfb⟩ := List.pairwise_append.1 hsorted
  have hbeyond : ∀ n ∈ back, m.position ≤ n.position := by
    cases back with
    | nil => simp
    | cons x xs =>
      have hx := hback x rfl
      rw [List.pairwise_cons] at hb
      simp only [List.mem_cons, forall_eq_or_imp]
      exact ⟨hx.le, fun n hn => hx.le.trans (hb.1 n hn)⟩
  rw [hins]
  refine ⟨List.pairwise_append.2 ⟨hf, List.pairwise_cons.2 ⟨hbeyond, hb⟩, fun a ha b hb' => ?_⟩, fun n hn => ?_⟩
  · obtain rfl | hmem' := List.mem_cons.1 hb'
    · exact hfront a ha
    · exact hfb a ha b hmem'
  · simp only [List.mem_append, List.mem_cons] at hn
    obtain hn | rfl | hn := hn
    · exact hmem n (List.mem_append_left _ hn)
    · exact ⟨hl, hc⟩
    · exact hmem n (List.mem_append_right _ hn)

theorem guardMark_position_le (c : Nat) (m : Mark) : c ≤ (guardMark c m).position ∧ (guardMark c m).lane = m.lane := by
  unfold guardMark
  split
  · exact ⟨le_rfl, rfl⟩
  · next h => exact ⟨not_lt.1 h, rfl⟩

/-- What stays of a mark at a cut keeps its lane, stands at the cut or beyond, and moves no further than there (R88,
R89). -/
theorem stayAtCut_position {cut : Nat} {m n : Mark} (h : stayAtCut cut m = some n) :
    n.lane = m.lane ∧ n.position = max cut m.position := by
  unfold stayAtCut at h
  split at h
  · next hle => cases h; exact ⟨rfl, (max_eq_right hle).symm⟩
  · next hlt =>
    have hmax := (max_eq_left (not_le.1 hlt).le).symm
    split at h
    · cases h; exact ⟨rfl, hmax⟩
    · split at h
      · cases h; exact ⟨rfl, hmax⟩
      · cases h

theorem listLaw_marksStay {l : LaneNo} {c : Nat} {ms : List Mark} (isEnd : Bool) (cut : Nat) (h : ListLaw l c ms) :
    ListLaw l cut (marksStay isEnd cut ms) := by
  obtain ⟨hsorted, hmem⟩ := h
  unfold marksStay
  split
  · exact ⟨List.Pairwise.nil, nofun⟩
  · refine ⟨List.Pairwise.filterMap _ (fun a b hab a' ha b' hb => ?_) hsorted, fun n hn => ?_⟩
    · rw [(stayAtCut_position ha).2, (stayAtCut_position hb).2]
      exact max_le_max_left cut hab
    · obtain ⟨m, hm, hmn⟩ := List.mem_filterMap.1 hn
      obtain ⟨hl, hp⟩ := stayAtCut_position hmn
      exact ⟨hl.trans (hmem m hm).1, hp ▸ le_max_left _ _⟩

theorem marksStay_length_le (isEnd : Bool) (cut : Nat) (ms : List Mark) : (marksStay isEnd cut ms).length ≤ ms.length := by
  unfold marksStay
  split
  · exact Nat.zero_le _
  · exact List.length_filterMap_le _ _

/-! ### The store -/

theorem setMarkList_marksHeld (s : State) (l : LaneNo) (ms : List Mark) :
    (s.setMarkList l ms).marksHeld + (s.markList l).length = s.marksHeld + ms.length := by
  fin_cases l <;> simp [State.marksHeld, allLanes, State.setMarkList_markList] <;> omega

theorem marksHeld_congr (h : t.marks.lists = s.marks.lists) : t.marksHeld = s.marksHeld := by
  simp [State.marksHeld, State.markList, h]

/-- A change of one lane's list and record, the pool not growing past its size. -/
theorem markLaw_modList {l : LaneNo} {ms : List Mark} {f : Lane → Lane}
    (hlen : s.marksHeld + ms.length ≤ 96 + (s.markList l).length)
    (hlaw : ListLaw l (s.lane l).coilStart (s.markList l) → ListLaw l (f (s.lane l)).coilStart ms) (hs : MarkLaw s) :
    MarkLaw ((s.setMarkList l ms).modLane l f) := by
  obtain ⟨-, hlists⟩ := hs
  have hheld := setMarkList_marksHeld s l ms
  refine ⟨?_, fun m => ?_⟩
  · show (s.setMarkList l ms).marksHeld ≤ 96
    omega
  · rw [State.modLane_markList, State.setMarkList_markList, State.modLane_lane, State.setMarkList_lane]
    split
    · next h => subst h; exact hlaw (hlists m)
    · exact hlists m

theorem State.modLane_id (s : State) (l : LaneNo) : (s.modLane l fun x => x) = s := by
  simp [State.modLane, State.setLane, State.lane]

/-- A change of one lane's list that leaves the lanes and the places of its marks. -/
theorem markLaw_setMarkList {l : LaneNo} {ms : List Mark}
    (hms : ms.map (fun m => (m.lane, m.position)) = (s.markList l).map fun m => (m.lane, m.position)) (hs : MarkLaw s) :
    MarkLaw (s.setMarkList l ms) := by
  have hlen : ms.length = (s.markList l).length := by simpa using congrArg List.length hms
  rw [← State.modLane_id (s.setMarkList l ms) l]
  exact markLaw_modList (by rw [hlen]; exact Nat.add_le_add_right hs.1 _) (listLaw_congr hms) hs

/-- A change of the other records that moves no coil_start forward. -/
theorem markLaw_of_alike (hm : t.marks.lists = s.marks.lists) (hc : ∀ l, (t.lane l).coilStart ≤ (s.lane l).coilStart)
    (hs : MarkLaw s) : MarkLaw t := by
  obtain ⟨hheld, hlists⟩ := hs
  refine ⟨(marksHeld_congr hm).trans_le hheld, fun l => ?_⟩
  have hlist : t.markList l = s.markList l := by simp [State.markList, hm]
  rw [hlist]
  exact ⟨(hlists l).1, fun m hmem => ⟨((hlists l).2 m hmem).1, (hc l).trans ((hlists l).2 m hmem).2⟩⟩

theorem markLaw_modLane {l : LaneNo} {f : Lane → Lane} (hf : (f (s.lane l)).coilStart ≤ (s.lane l).coilStart)
    (hs : MarkLaw s) : MarkLaw (s.modLane l f) := by
  refine markLaw_of_alike (s := s) rfl (fun m => ?_) hs
  rw [State.modLane_lane]
  split
  · next h => subst h; exact hf
  · exact le_rfl

theorem markLaw_empty (hm : t.marks = MarkStore.empty) : MarkLaw t := by
  have hlist : ∀ l, t.markList l = [] := fun l => by
    rw [State.markList, hm]
    fin_cases l <;> rfl
  refine ⟨?_, fun l => by rw [hlist]; exact ⟨List.Pairwise.nil, nofun⟩⟩
  simp [State.marksHeld, hlist, allLanes]

theorem markLaw_handMark (m : Mark) (s : State) (hs : MarkLaw s) : MarkLaw (handMark m s) := by
  obtain ⟨-, heq⟩ | ⟨hfree, heq⟩ := handMark_cases m s
  · rw [heq]
    exact markLaw_modLane le_rfl hs
  · have hlaw : MarkLaw ((s.setMarkList m.lane (insertMark
        { guardMark (s.lane m.lane).coilStart m with made := s.marks.nextMade } (s.markList m.lane))).modLane m.lane id) :=
      markLaw_modList (by simp only [insertMark_length]; omega)
        (listLaw_insertMark (guardMark_position_le _ m).2 (guardMark_position_le _ m).1) hs
    rw [heq]
    refine markLaw_of_alike ?_ (fun l => ?_) hlaw
    · rfl
    · rw [State.modLane_lane]
      split <;> exact le_rfl

theorem lane_of_lanes (h : t.lanes = s.lanes) (l : LaneNo) : t.lane l = s.lane l := by
  rw [State.lane, h, State.lane]

theorem markLaw_loose : Loose MarkLaw where
  view s t hv _ hs := by
    simp only [State.vitals, Prod.mk.injEq] at hv
    obtain ⟨hposts, -, -, hm, -⟩ := hv
    refine markLaw_of_alike hm (fun l => ?_) hs
    have := congrFun hposts l
    simp only [Prod.mk.injEq] at this
    exact this.2.2.le
  tally l v s _ hs := markLaw_modLane le_rfl hs
  drawTally _ _ _ hs := hs
  startRecord l _ _ s _ hs := markLaw_modLane (Nat.zero_le _) hs
  softResetJobs _ _ := markLaw_empty rfl
  reset _ _ _ := markLaw_empty rfl
  mapLane bs s hs := by
    refine markLaw_of_alike (s := s) (congrArg (fun u => u.marks.lists) (serveMapLane_frame bs s) :) (fun l => ?_) hs
    obtain ⟨k, hk⟩ := serveMapLane_lane bs s l
    rw [hk]
  setGeometry bs s hs := by
    unfold serveSetGeometry
    dsimp only
    split <;> exact hs
  setFactor bs s hs := by
    unfold serveSetFactor
    split
    · exact hs
    · dsimp only
      split <;> exact hs
  field ctx bs s hs := by
    have hframe := serveField_frame ctx bs s
    exact markLaw_of_alike (s := s) (congrArg (fun u => u.marks.lists) hframe :)
      (fun l => (congrArg Lane.coilStart (lane_of_lanes (congrArg State.lanes hframe :) l)).le) hs
  calFactor _ _ _ _ _ hs := hs
  handMark := markLaw_handMark
  extendZone _ i lw sense _ hs := markLaw_setMarkList (modify_extendZone_map lw sense i _) hs
  closeMark _ extent _ hs := markLaw_setMarkList (closeSpliceIn_map extent _) hs
  cutLane isEnd l s hs := markLaw_modList (Nat.add_le_add hs.1 (marksStay_length_le _ _ _)) (listLaw_marksStay _ _) hs
  cuts _ _ _ _ _ hs := hs
  joinCut w due late s hs := by
    unfold joinCut
    split <;> exact hs
  takePackage _ _ _ _ _ _ _ hs := hs
  release s hs := by
    unfold serveReleasePackage promoteHeld
    split
    · exact hs
    · dsimp only [accept_state]
      split <;> exact hs

/-- Settles O55: the pool's bound and the order of every list are kept by every step (R80). -/
theorem stepKeepsTheMarkStore : Obligations.StepKeepsTheMarkStore :=
  fun _ _ hs hstep => markLaw_loose.steady.kept.step hstep hs

end Sys2Proof.Machine
end


section
/-! PROOFS. The laws of the package queue over a step (08_cuts_and_packages.md R143, R152): packages and REQUESTED
entries share eight places, and the numbers of the queue run on to the counter. -/

namespace Sys2Proof.Machine

variable {s t : State}

/-! ### Places -/

theorem requested_append (u : CutUnit) (e : CutEntry) :
    ({ u with list := u.list ++ [e] } : CutUnit).requested = u.requested + if e.isRequested then 1 else 0 := by
  simp only [CutUnit.requested, List.filter_append, List.length_append, List.filter_cons, List.filter_nil]
  split <;> rfl

/-- A REQUESTED entry that leaves the list frees its place. -/
theorem requested_eraseP (u : CutUnit) (fits : CutEntry → Bool) (hex : ∃ e ∈ u.list, fits e = true)
    (hreq : ∀ e, fits e = true → e.isRequested = true) :
    ({ u with list := u.list.eraseP fits } : CutUnit).requested + 1 = u.requested := by
  obtain ⟨e, he, hfits⟩ := hex
  obtain ⟨a, front, back, -, ha, hlist, herase⟩ := List.exists_of_eraseP he hfits
  simp only [CutUnit.requested]
  rw [herase, hlist]
  simp only [List.filter_append, List.filter_cons, hreq a ha, List.length_append, if_true, List.length_cons]
  omega

theorem requested_promoteFirst_le (es : List CutEntry) :
    ((promoteFirst es).filter CutEntry.isRequested).length ≤ (es.filter CutEntry.isRequested).length + 1 := by
  induction es with
  | nil => simp [promoteFirst]
  | cons e es ih =>
    rw [promoteFirst]
    split
    · next hheld => simp [CutEntry.isRequested, hheld]
    · simp only [List.filter_cons]
      split
      · simpa using ih
      · exact ih

/-! ### Numbers -/

theorem nextNumber_bounds {n : Nat} (h : 1 ≤ n ∧ n ≤ 65535) : 1 ≤ nextNumber n ∧ nextNumber n ≤ 65535 := by
  unfold nextNumber
  split <;> omega

/-- A package of the counter's number continues the run. -/
theorem numbersRun_append (xs : List Package) (x : Package) (h : numbersRun xs x.number = true) :
    numbersRun (xs ++ [x]) (nextNumber x.number) = true := by
  induction xs with
  | nil => simp [numbersRun]
  | cons y ys ih =>
    cases ys with
    | nil => simpa [numbersRun] using h
    | cons z zs =>
      simp only [numbersRun, Bool.and_eq_true, List.cons_append] at h ih ⊢
      exact ⟨h.1, ih h.2⟩

theorem numbersRun_tail {x : Package} {xs : List Package} {counter : Nat} (h : numbersRun (x :: xs) counter = true) :
    numbersRun xs counter = true := by
  cases xs with
  | nil => rfl
  | cons y ys => exact (Bool.and_eq_true_iff.1 h).2

/-! ### The services -/

/-- RELEASE_PACKAGE takes the head off the queue, makes at most one entry REQUESTED and leaves the counter (R157). -/
theorem serveReleasePackage_cuts (s : State) :
    (serveReleasePackage s).state.cuts = s.cuts ∨
      ∃ x, s.cuts.queue = x :: (serveReleasePackage s).state.cuts.queue ∧
        (serveReleasePackage s).state.cuts.counter = s.cuts.counter ∧
        (serveReleasePackage s).state.cuts.requested ≤ s.cuts.requested + 1 := by
  unfold serveReleasePackage promoteHeld
  split
  · exact .inl rfl
  · next x rest hqueue =>
    refine .inr ⟨x, ?_⟩
    dsimp only [accept_state]
    split
    · exact ⟨hqueue, rfl, Nat.le_succ _⟩
    · exact ⟨hqueue, rfl, requested_promoteFirst_le s.cuts.list⟩

/-- A change that leaves the cut and package unit. -/
theorem cuts_of_vitals (hv : t.vitals = s.vitals) : t.cuts = s.cuts := by
  simp only [State.vitals, Prod.mk.injEq] at hv
  exact hv.2.2.2.2.2

theorem softResetJobs_cuts (s : State) : (softResetJobs s).cuts = { CutUnit.reset with counter := s.cuts.counter } := rfl

theorem serveMapLane_cuts (bs : List Byte) (s : State) : (serveMapLane bs s).state.cuts = s.cuts :=
  (congrArg State.cuts (serveMapLane_frame bs s) :)

theorem serveSetGeometry_cuts (bs : List Byte) (s : State) : (serveSetGeometry bs s).state.cuts = s.cuts :=
  (congrArg State.cuts (serveSetGeometry_frame bs s).1 :)

theorem serveSetFactor_cuts (bs : List Byte) (s : State) : (serveSetFactor bs s).state.cuts = s.cuts :=
  (congrArg State.cuts (serveSetFactor_frame bs s) :)

theorem serveField_cuts (ctx : FieldContext) (bs : List Byte) (s : State) : (serveField ctx bs s).state.cuts = s.cuts :=
  (congrArg State.cuts (serveField_frame ctx bs s) :)

theorem handMark_cuts (m : Mark) (s : State) : (handMark m s).cuts = s.cuts := by
  unfold handMark
  split <;> rfl

/-- A law of the cut and package unit alone, kept by what joins, leaves and changes there. -/
theorem Loose.of_cuts {Q : CutUnit → Prop} (hreset : Q CutUnit.reset)
    (hsoft : ∀ u, Q u → Q { CutUnit.reset with counter := u.counter })
    (halike : ∀ u v : CutUnit, v.queue = u.queue → v.counter = u.counter → v.requested = u.requested → Q u → Q v)
    (hjoin : ∀ (w : CutWhat) (due : Nat) (late : Bool) (s : State), Q s.cuts → Q (Machine.joinCut w due late s).cuts)
    (htake : ∀ (pkg : Package) (fits : CutEntry → Bool) (s : State), (∃ e ∈ s.cuts.list, fits e = true) → (∀ e, fits e = true → e.isRequested = true) →
      pkg.number = s.cuts.counter → Q s.cuts → Q (queuePackage pkg 0 (removeEntry fits s)).cuts)
    (hrelease : ∀ s : State, Q s.cuts → Q (serveReleasePackage s).state.cuts) : Loose fun s => Q s.cuts where
  view _ _ hv _ hs := (cuts_of_vitals hv).symm ▸ hs
  tally _ _ _ _ hs := hs
  drawTally _ _ _ hs := hs
  startRecord _ _ _ _ _ hs := hs
  softResetJobs s hs := hsoft s.cuts hs
  reset _ _ _ := hreset
  mapLane bs s hs := (serveMapLane_cuts bs s).symm ▸ hs
  setGeometry bs s hs := (serveSetGeometry_cuts bs s).symm ▸ hs
  setFactor bs s hs := (serveSetFactor_cuts bs s).symm ▸ hs
  field ctx bs s hs := (serveField_cuts ctx bs s).symm ▸ hs
  calFactor _ _ _ _ _ hs := hs
  handMark m s hs := (handMark_cuts m s).symm ▸ hs
  extendZone _ _ _ _ _ hs := hs
  closeMark _ _ _ hs := hs
  cutLane _ _ _ hs := hs
  cuts f s hq hc hr hs := halike s.cuts (f s.cuts) hq hc hr hs
  joinCut := hjoin
  takePackage pkg _ fits s hex hreq hnumber hs := htake pkg fits s hex hreq hnumber hs
  release := hrelease

theorem placesLaw_loose : Loose PlacesLaw := by
  refine Loose.of_cuts (Q := fun u => u.queue.length + u.requested ≤ 8) (by decide) (fun _ _ => Nat.zero_le 8)
    (fun u v hq _ hr hu => by rwa [hq, hr]) (fun w due late s hs => ?join) (fun pkg fits s hex hreq _ hs => ?take)
    (fun s hs => ?release)
  case join =>
    rw [joinCut_cuts, requested_append]
    dsimp only
    split <;> simp only [CutEntry.isRequested] <;> simp <;> omega
  case take =>
    have hreq := requested_eraseP s.cuts fits hex hreq
    simp only [queuePackage, removeEntry, State.raise_cuts, State.modCuts_cuts, List.length_append,
      List.length_singleton]
    simp only [CutUnit.requested] at hreq hs ⊢
    omega
  case release =>
    obtain heq | ⟨x, hqueue, -, hreq⟩ := serveReleasePackage_cuts s
    · rwa [heq]
    · rw [hqueue, List.length_cons] at hs
      omega

theorem numberLaw_loose : Loose NumberLaw := by
  refine Loose.of_cuts (Q := fun u => (1 ≤ u.counter ∧ u.counter ≤ 65535) ∧
      (∀ x ∈ u.queue, 1 ≤ x.number ∧ x.number ≤ 65535) ∧ numbersRun u.queue u.counter = true)
    (by decide) (fun u hu => ⟨hu.1, nofun, rfl⟩) (fun u v hq hc _ hu => by rwa [hq, hc])
    (fun w due late s hs => by rwa [joinCut_cuts]) (fun pkg fits s _ _ hnumber hs => ?take) (fun s hs => ?release)
  case take =>
    obtain ⟨hc, hn, hrun⟩ := hs
    rw [← hnumber] at hc hrun
    simp only [queuePackage, removeEntry, State.raise_cuts, State.modCuts_cuts, ← hnumber]
    refine ⟨nextNumber_bounds hc, fun x hx => ?_, numbersRun_append _ pkg hrun⟩
    obtain hx | hx := List.mem_append.1 hx
    · exact hn x hx
    · rw [List.mem_singleton.1 hx]
      exact hc
  case release =>
    obtain heq | ⟨x, hqueue, hcounter, -⟩ := serveReleasePackage_cuts s
    · rwa [heq]
    · obtain ⟨hc, hn, hrun⟩ := hs
      rw [hqueue] at hn hrun
      rw [hcounter]
      exact ⟨hc, fun y hy => hn y (List.mem_cons_of_mem x hy), numbersRun_tail hrun⟩

/-- Settles O56: the eight places and the run of the package numbers are kept by every step (R143, R152). -/
theorem stepKeepsPlacesAndNumbers : Obligations.StepKeepsPlacesAndNumbers := by
  intro s t hstep
  exact ⟨placesLaw_loose.steady.kept.step hstep, numberLaw_loose.steady.kept.step hstep⟩

end Sys2Proof.Machine
end


section
/-! PROOFS. The law of the trim over a step (04_twist_measurement_and_trim.md R69): what trim_start and a recipe switch
leave of a lane, and what the lanes of a law of slots and trim keep. -/

namespace Sys2Proof.Machine

variable {s t : State}

/-! ### Trim at entry to RUN and at a switch -/

/-- The trim that trim_start sets lies within the limits, where these are in order (R69). -/
theorem startTrim_bounds {r : Recipe} (h : r.trimMin ≤ r.trimMax) (held : Int) :
    r.trimMin ≤ startTrim r held ∧ startTrim r held ≤ r.trimMax := by
  unfold startTrim
  split
  · have hmid : (r.trimMin + r.trimMax).tdiv 2 = (r.trimMin + r.trimMax) / 2 ∨
        (r.trimMin + r.trimMax).tdiv 2 = (r.trimMin + r.trimMax) / 2 + 1 ∧ (r.trimMin + r.trimMax) % 2 ≠ 0 := by
      rw [Int.tdiv_eq_ediv]
      split <;> simp
      omega
    omega
  · exact clampInt_bounds h held

theorem setStartTrim_lane (l m : LaneNo) (s : State) :
    (setStartTrim l s).lane m =
      if m = l then { s.lane m with trim := startTrim (s.activeRecipe m) (s.lane m).trim } else s.lane m := by
  unfold setStartTrim
  dsimp only
  split
  · next h =>
    split
    · next hm => subst hm; rw [h]
    · rfl
  · rw [State.raise_lane, State.modLane_lane]
    split
    · next hm => subst hm; rfl
    · rfl

theorem setStartTrim_recipe (l : LaneNo) (s : State) (i : SlotNo) : (setStartTrim l s).recipe i = s.recipe i :=
  congrArg (fun v : Vector Recipe 4 => v[i]) (recipes_of_fixed (setStartTrim_fixed s l))

theorem switchLane_recipe (l : LaneNo) (i j : SlotNo) (s : State) : (switchLane l i s).recipe j = s.recipe j :=
  congrArg (fun v : Vector Recipe 4 => v[j]) (recipes_of_fixed (switchLane_fixed s l i))

/-- A switch leaves every other lane. -/
theorem switchLane_lane_ne {l m : LaneNo} (h : m ≠ l) (i : SlotNo) (s : State) : (switchLane l i s).lane m = s.lane m := by
  unfold switchLane
  dsimp only
  split <;> simp only [State.modLane_lane, setStartTrim_lane, if_neg h]

theorem switchLane_line (l : LaneNo) (i : SlotNo) (s : State) : (switchLane l i s).line = s.line := by
  unfold switchLane setStartTrim
  dsimp only
  (repeat' split) <;> rfl

/-- A switch of each lane of a list without repetitions restarts each under the slot's recipe. -/
theorem forLanes_switchLane_lane (i : SlotNo) (m : LaneNo) {ls : List LaneNo} (h : ls.Nodup) (s : State) :
    (forLanes ls (fun l t => switchLane l i t) s).lane m =
      if m ∈ ls then (s.lane m).restartedUnder (s.recipe i) i else s.lane m := by
  induction ls generalizing s with
  | nil => simp [forLanes]
  | cons l ls ih =>
    obtain ⟨hl, hls⟩ := List.nodup_cons.1 h
    have htail := ih hls (switchLane l i s)
    rw [show forLanes (l :: ls) (fun l t => switchLane l i t) s =
      forLanes ls (fun l t => switchLane l i t) (switchLane l i s) from rfl, htail, switchLane_recipe]
    by_cases hm : m = l
    · subst hm
      simp [hl, switchLane_lane]
    · simp [hm, switchLane_lane_ne hm]

theorem mem_allLanes (l : LaneNo) : l ∈ allLanes := by
  revert l
  decide

theorem mem_lanesInUse (s : State) (l : LaneNo) : l ∈ lanesInUse s ↔ (s.lane l).state ≠ .idle := by
  simp [lanesInUse, mem_allLanes]

theorem nodup_lanesInUse (s : State) : (lanesInUse s).Nodup := by
  have nodup : allLanes.Nodup := by decide
  exact nodup.filter _

/-- A line switch restarts every lane that is not IDLE (R107, R110, R111). -/
theorem lineSwitch_lane (i : SlotNo) (s : State) (l : LaneNo) :
    (lineSwitch i s).lane l =
      if (s.lane l).state ≠ .idle then (s.lane l).restartedUnder (s.recipe i) i else s.lane l := by
  have h := forLanes_switchLane_lane i l (nodup_lanesInUse s)
    { s with line := { s.line with lineSlot := i, pendingLineSlot := none } }
  simp only [mem_lanesInUse] at h
  exact h

theorem lineSwitch_recipe (i j : SlotNo) (s : State) : (lineSwitch i s).recipe j = s.recipe j :=
  congrArg (fun v : Vector Recipe 4 => v[j]) (recipes_of_fixed (lineSwitch_fixed s i))

theorem lineSwitch_line (i : SlotNo) (s : State) :
    (lineSwitch i s).line = { s.line with lineSlot := i, pendingLineSlot := none } :=
  forLanes_keeps State.line (fun l t => switchLane l i t) (fun l t => switchLane_line l i t) (lanesInUse s)
    { s with line := { s.line with lineSlot := i, pendingLineSlot := none } }

/-- The trim of a restarted lane: that of trim_start while it runs, else as it was (R70, R111). -/
theorem restartedUnder_trim (r : Recipe) (i : SlotNo) (x : Lane) :
    (x.restartedUnder r i).trim = if x.state.running = true then startTrim r x.trim else x.trim := by
  unfold Lane.restartedUnder
  cases hstate : x.state <;> rfl

theorem restartedUnder_state (r : Recipe) (i : SlotNo) (x : Lane) : (x.restartedUnder r i).state = x.state := by
  unfold Lane.restartedUnder
  cases x.state <;> rfl

theorem restartedUnder_slot (r : Recipe) (i : SlotNo) (x : Lane) : (x.restartedUnder r i).slot = i := by
  unfold Lane.restartedUnder
  cases x.state <;> rfl

theorem restartedUnder_pendingSlot (r : Recipe) (i : SlotNo) (x : Lane) :
    (x.restartedUnder r i).pendingSlot = x.pendingSlot := by
  unfold Lane.restartedUnder
  cases x.state <;> rfl

theorem consistent_trim {r : Recipe} (h : r.consistent = true) : r.trimMin ≤ r.trimMax := by
  simp only [Recipe.consistent, Bool.and_eq_true, decide_eq_true_eq] at h
  exact h.1.1

/-! ### The law of the trim, lane by lane -/

/-- The law of the trim for one lane. -/
abbrev Lane.TrimOk (r : SlotNo → Recipe) (x : Lane) : Prop :=
  (x.state.running = true → (r x.slot).trimMin ≤ x.trim ∧ x.trim ≤ (r x.slot).trimMax) ∧
  (x.state ≠ .idle → (r x.slot).trimMin ≤ (r x.slot).trimMax) ∧
  ∀ i, x.pendingSlot = some i → (r i).trimMin ≤ (r i).trimMax

theorem trimLaw_iff (s : State) : TrimLaw s ↔ (∀ l, (s.lane l).TrimOk s.recipe) ∧
    ∀ i, s.line.pendingLineSlot = some i → (s.recipe i).trimMin ≤ (s.recipe i).trimMax :=
  ⟨fun ⟨h1, h2, h3, h4⟩ => ⟨fun l => ⟨h1 l, h2 l, h3 l⟩, h4⟩,
    fun ⟨h, h4⟩ => ⟨fun l => (h l).1, fun l => (h l).2.1, fun l => (h l).2.2, h4⟩⟩

theorem trimLaw_modLane (l : LaneNo) (f : Lane → Lane)
    (hf : (s.lane l).TrimOk s.recipe → (f (s.lane l)).TrimOk s.recipe) (hs : TrimLaw s) : TrimLaw (s.modLane l f) := by
  obtain ⟨hlanes, hline⟩ := (trimLaw_iff s).1 hs
  refine (trimLaw_iff _).2 ⟨fun m => ?_, hline⟩
  rw [State.modLane_lane]
  split
  · next h => subst h; exact hf (hlanes m)
  · exact hlanes m

theorem trimLaw_of_frame (hl : t.lanes = s.lanes) (hr : t.recipes = s.recipes)
    (hp : t.line.pendingLineSlot = s.line.pendingLineSlot) (hs : TrimLaw s) : TrimLaw t := by
  have hlane : ∀ l, t.lane l = s.lane l := lane_of_lanes hl
  have hrec : ∀ i, t.recipe i = s.recipe i := fun i => by rw [State.recipe, hr, State.recipe]
  simp only [TrimLaw, State.activeRecipe, hlane, hrec, hp]
  exact hs

/-- A lane that is IDLE with no pending slot meets the law. -/
theorem Lane.trimOk_idle {r : SlotNo → Recipe} {x : Lane} (hstate : x.state = .idle) (hp : x.pendingSlot = none) :
    x.TrimOk r := by
  simp [Lane.TrimOk, hstate, hp, LaneState.running]

theorem Lane.trimOk_restartedUnder {r : SlotNo → Recipe} {x : Lane} {i : SlotNo}
    (hi : (r i).trimMin ≤ (r i).trimMax) (hx : x.TrimOk r) : (x.restartedUnder (r i) i).TrimOk r := by
  refine ⟨fun hrun => ?_, fun _ => ?_, fun j hj => ?_⟩
  · rw [restartedUnder_state] at hrun
    rw [restartedUnder_slot, restartedUnder_trim, if_pos hrun]
    exact startTrim_bounds hi _
  · rwa [restartedUnder_slot]
  · rw [restartedUnder_pendingSlot] at hj
    exact hx.2.2 j hj

theorem trimLaw_switchLane {l : LaneNo} {i : SlotNo} (hi : (s.recipe i).trimMin ≤ (s.recipe i).trimMax)
    (hs : TrimLaw s) : TrimLaw (switchLane l i s) := by
  obtain ⟨hlanes, hline⟩ := (trimLaw_iff s).1 hs
  have hrec : (switchLane l i s).recipe = s.recipe := funext fun j => switchLane_recipe l i j s
  refine (trimLaw_iff _).2 ⟨fun m => ?_, by rw [hrec, switchLane_line]; exact hline⟩
  rw [hrec]
  by_cases h : m = l
  · subst h
    rw [switchLane_lane]
    exact Lane.trimOk_restartedUnder hi (hlanes m)
  · rw [switchLane_lane_ne h]
    exact hlanes m

/-- An anchor kept keeps the law. -/
theorem Lane.trimOk_of_anchor {r : SlotNo → Recipe} {x y : Lane} (h : y.anchor = x.anchor) (hx : x.TrimOk r) :
    y.TrimOk r := by
  simp only [Lane.anchor, Prod.mk.injEq] at h
  obtain ⟨hstate, -, -, -, hslot, hpending, htrim⟩ := h
  simpa only [Lane.TrimOk, hstate, hslot, hpending, htrim] using hx

theorem trimLaw_clearPending (l : LaneNo) (hs : TrimLaw s) :
    TrimLaw (s.modLane l fun x => { x with pendingSlot := none }) :=
  trimLaw_modLane l (fun x => { x with pendingSlot := none }) (fun ⟨h1, h2, _⟩ => ⟨h1, h2, nofun⟩) hs

/-- The switch of a coil's cut takes a pending slot, whose limits are in order (R110). -/
theorem trimLaw_laneSwitch {l : LaneNo} (hs : TrimLaw s) : TrimLaw (laneSwitch false l s) := by
  unfold laneSwitch
  split
  · exact hs
  · next i hi => exact trimLaw_switchLane (l := l) (((trimLaw_iff s).1 hs).1 l |>.2.2 i hi) (trimLaw_clearPending l hs)

/-- The lane of an END cut has no pending slot left and goes to IDLE (R110, R147). -/
theorem trimLaw_endSwitch {l : LaneNo} (hs : TrimLaw s) :
    TrimLaw ((laneSwitch true l s).modLane l fun x => { x with state := .idle }) := by
  unfold laneSwitch
  split
  · next hp => exact trimLaw_modLane l (fun x => { x with state := .idle }) (fun _ => Lane.trimOk_idle rfl hp) hs
  · next i _ =>
    refine trimLaw_of_frame (s := ((s.modLane l fun x => { x with pendingSlot := none }).modLane l
      (Lane.takeSlot i)).modLane l fun x => { x with state := .idle }) rfl rfl rfl ?_
    rw [State.modLane_modLane]
    exact trimLaw_modLane l (fun x => { Lane.takeSlot i x with state := .idle })
      (fun _ => Lane.trimOk_idle rfl (by rw [State.modLane_lane_self]; rfl)) (trimLaw_clearPending l hs)

/-- A change of a recipe that no lane runs under, and none will, keeps the law. -/
theorem trimLaw_setRecipe {i : SlotNo} (r : Recipe) (hfree : slotInUse s i = false) (hs : TrimLaw s) :
    TrimLaw (s.setRecipe i r) := by
  have hfree : ¬ InUse s i := fun h => by simp [(slotInUse_iff s i).2 h] at hfree
  simp only [InUse, not_or, not_exists, not_and] at hfree
  obtain ⟨hslot, hpending, -, hline⟩ := hfree
  have hother : ∀ j, j ≠ i → (s.setRecipe i r).recipe j = s.recipe j := fun j hj => by
    rw [State.setRecipe_recipe, if_neg hj]
  obtain ⟨hlanes, hpl⟩ := (trimLaw_iff s).1 hs
  refine (trimLaw_iff _).2 ⟨fun l => ⟨fun hrun => ?_, fun hidle => ?_, fun j hj => ?_⟩, fun j hj => ?_⟩
  · have hidle : (s.lane l).state ≠ .idle := fun h => by
      simp [State.setRecipe_lane, h, LaneState.running] at hrun
    rw [State.setRecipe_lane] at hrun ⊢
    rw [hother _ (hslot l hidle)]
    exact (hlanes l).1 hrun
  · rw [State.setRecipe_lane] at hidle ⊢
    rw [hother _ (hslot l hidle)]
    exact (hlanes l).2.1 hidle
  · rw [hother j fun h => hpending l (h ▸ hj)]
    exact (hlanes l).2.2 j hj
  · rw [hother j fun h => hline (h ▸ hj)]
    exact hpl j hj

theorem trimLaw_steady : Steady TrimLaw where
  records s t heq hs := by
    simp only [State.records, Prod.mk.injEq] at heq
    obtain ⟨hl, -, -, hr, -, hline, -⟩ := heq
    exact trimLaw_of_frame hl hr (by rw [hline]) hs
  mild l f s hf hs := trimLaw_modLane l f (Lane.trimOk_of_anchor (hf _).1) hs
  calMild _ _ _ _ hs := hs
  tally l v s _ hs := trimLaw_modLane l _ id hs
  drawTally _ _ _ hs := hs
  laneState l st s hidle hrun _ hs := by
    refine trimLaw_modLane l _ (fun ⟨h1, h2, h3⟩ => ⟨fun h => h1 (hrun h), fun h => h2 fun heq => ?_, h3⟩) hs
    exact hidle.elim h fun hne => hne heq
  enterRun l s hth hs := by
    obtain ⟨hlanes, hline⟩ := (trimLaw_iff s).1 hs
    have hlimits : (s.activeRecipe l).trimMin ≤ (s.activeRecipe l).trimMax := (hlanes l).2.1 (by rw [hth]; nofun)
    have htrim : TrimLaw (setStartTrim l s) := by
      have hrec : (setStartTrim l s).recipe = s.recipe := funext fun i => setStartTrim_recipe l s i
      refine (trimLaw_iff _).2 ⟨fun m => ?_, ?_⟩
      · rw [hrec, setStartTrim_lane]
        split
        · next hm =>
          subst hm
          exact ⟨fun _ => startTrim_bounds hlimits (s.lane m).trim, (hlanes m).2⟩
        · exact hlanes m
      · rw [hrec]
        unfold setStartTrim
        dsimp only
        split <;> exact hline
    refine trimLaw_of_frame (s := ((setStartTrim l s).modLane l Lane.restartWindow).modLane l
      fun x => { x with state := .run }) rfl rfl rfl ?_
    rw [State.modLane_modLane]
    refine trimLaw_modLane l _ (fun ⟨_, h2, h3⟩ => ⟨fun _ => ?_, fun _ => ?_, h3⟩) htrim
    · show _ ≤ ((setStartTrim l s).lane l).trim ∧ ((setStartTrim l s).lane l).trim ≤ _
      simp only [setStartTrim_recipe, setStartTrim_lane, if_pos]
      exact startTrim_bounds hlimits (s.lane l).trim
    · refine h2 ?_
      rw [setStartTrim_lane, if_pos rfl]
      exact fun h => absurd (hth.symm.trans h) nofun
  startRecord l s hidle _ hcons hs := by
    refine trimLaw_of_frame (s := (s.modLane l (startRecord s.line.mode s.line.lineSlot)).modLane l
      fun x => { x with state := .threading }) rfl rfl rfl ?_
    rw [State.modLane_modLane]
    refine trimLaw_modLane l _ (fun ⟨_, _, h3⟩ => ⟨nofun, fun _ => ?_, fun i hi => ?_⟩) hs
    · have := consistent_trim hcons
      unfold startRecipe at this
      simp only [startRecord]
      split <;> simp_all [State.lineRecipe, State.activeRecipe]
    · simp only [startRecord] at hi
      split at hi
      · cases hi
      · exact h3 i hi
  trim l v s hlo hhi hs := trimLaw_modLane l _ (fun ⟨_, h2, h3⟩ => ⟨fun _ => ⟨hlo, hhi⟩, h2, h3⟩) hs
  countWindow l b slip s _ _ hs := trimLaw_modLane l _ id hs
  coilSwitch isEnd l s hs := by
    cases isEnd
    · show TrimLaw (freshPlan l (laneSwitch false l s))
      exact trimLaw_modLane l (fun x => { x with plan := ⟨.watching, _, .normal⟩ }) id (trimLaw_laneSwitch hs)
    · exact trimLaw_endSwitch hs
  lineSwitch i s hi hs := by
    obtain ⟨hlanes, hline⟩ := (trimLaw_iff s).1 hs
    have hlimits : (s.recipe i).trimMin ≤ (s.recipe i).trimMax := hi.elim consistent_trim (hline i)
    have hrec : (lineSwitch i s).recipe = s.recipe := funext fun j => lineSwitch_recipe i j s
    refine (trimLaw_iff _).2 ⟨fun l => ?_, by rw [lineSwitch_line]; exact nofun⟩
    rw [hrec, lineSwitch_lane]
    split
    · exact Lane.trimOk_restartedUnder hlimits (hlanes l)
    · exact hlanes l
  assignLane l i s hidle hs := trimLaw_modLane l _ (fun _ => Lane.trimOk_idle hidle rfl) hs
  assignAtCut t i s hcons hs := by
    cases t with
    | lane l =>
      exact trimLaw_modLane l _ (fun ⟨h1, h2, _⟩ => ⟨h1, h2, fun j hj => Option.some_inj.1 hj ▸ consistent_trim hcons⟩) hs
    | line =>
      obtain ⟨hlanes, -⟩ := (trimLaw_iff s).1 hs
      exact (trimLaw_iff _).2 ⟨hlanes, fun j hj => Option.some_inj.1 hj ▸ consistent_trim hcons⟩
  changeMode m s hs := by
    obtain ⟨hlanes, -⟩ := (trimLaw_iff s).1 hs
    refine (trimLaw_iff _).2 ⟨fun l => ?_, nofun⟩
    rw [changeMode_lane]
    exact ⟨(hlanes l).1, (hlanes l).2.1, nofun⟩
  softResetJobs s _ :=
    (trimLaw_iff _).2 ⟨fun l => by rw [softResetJobs_lane]; exact Lane.trimOk_idle rfl rfl, nofun⟩
  reset straps lines s :=
    (trimLaw_iff _).2 ⟨fun l => by rw [fullReset_lane]; exact Lane.trimOk_idle rfl rfl, nofun⟩
  mapLane bs s hs := by
    have hrec : (serveMapLane bs s).state.recipe = s.recipe :=
      funext fun i => (congrArg (fun u : State => u.recipe i) (serveMapLane_frame bs s) :)
    have hline : (serveMapLane bs s).state.line = s.line := (congrArg State.line (serveMapLane_frame bs s) :)
    obtain ⟨hlanes, hpl⟩ := (trimLaw_iff s).1 hs
    refine (trimLaw_iff _).2 ⟨fun l => ?_, by rw [hrec, hline]; exact hpl⟩
    rw [hrec]
    obtain ⟨k, hk⟩ := serveMapLane_lane bs s l
    rw [hk]
    exact hlanes l
  setGeometry bs s hs := by
    unfold serveSetGeometry
    dsimp only
    split <;> exact hs
  setFactor bs s hs := by
    have h := serveSetFactor_frame bs s
    exact trimLaw_of_frame (congrArg State.lanes h :) (congrArg State.recipes h :) (congrArg (fun u => u.line.pendingLineSlot) h :) hs
  field ctx bs s hs := by
    cases ctx with
    | position k field =>
      simp only [serveField, servePositionField]
      split <;> exact hs
    | recipe slot index =>
      simp only [serveField, serveRecipeField]
      split
      · exact hs
      · next hfree => exact trimLaw_setRecipe _ (by simpa using hfree) hs
    | pattern slot row =>
      simp only [serveField, servePatternEntry]
      split
      · exact hs
      · next hfree => exact trimLaw_setRecipe _ (by simpa using hfree) hs
  calStart bs s hs := by
    unfold serveCalibrate
    split
    · exact hs
    · dsimp only
      (repeat' split) <;> exact hs
  calFactor _ _ _ _ _ hs := hs
  risingEdge k s _ _ hs := by
    unfold passACloseIfMet passAClose
    split
    · dsimp only
      split <;> exact hs
    · exact hs
  fallingEdge k s _ hs := passBCloseIfMet_keeps k (fun _ _ _ h => h) (fun _ _ _ _ h => h) (fun _ _ h => h) hs
  handMark m s hs := by
    unfold handMark
    split
    · exact trimLaw_modLane _ _ id hs
    · exact hs
  extendZone _ _ _ _ _ hs := hs
  closeMark _ _ _ hs := hs
  cutLane isEnd l s hs := trimLaw_modLane l _ id hs
  cuts _ _ _ _ _ hs := hs
  joinCut w due late s hs := by
    unfold joinCut
    split <;> exact hs
  takePackage _ _ _ _ _ _ _ hs := hs
  release s hs := by
    have h := serveReleasePackage_frame s
    exact trimLaw_of_frame (congrArg State.lanes h :) (congrArg State.recipes h :) (congrArg (fun u => u.line.pendingLineSlot) h :) hs

/-- Settles O57: the trim of a running lane stays within its recipe at every step (R69). -/
theorem stepKeepsTheTrim : Obligations.StepKeepsTheTrim := fun _ _ hs hstep => trimLaw_steady.kept.step hstep hs

end Sys2Proof.Machine
end


section
/-! PROOFS. The law of the working ranges over a step: the twist state, runs and counters of the lanes, and the
calibration records (R2, R42, R54, R62, R64, R122), on states whose recipe, position and geometry fields are in range. -/

namespace Sys2Proof.Machine

variable {s t : State}

/-! ### Ranges of a lane and of a calibration record -/

/-- Both laws of ranges: that of the fields given by commands, and that of what the block works out under them. -/
abbrev AllRangesLaw (s : State) : Prop := RangeLaw s ∧ WorkRangeLaw s

theorem Lane.inRange_of_period {p q : Nat} {x : Lane} (h : x.InRange p) (hrun : x.state = .run → x.periodIndex < q) :
    x.InRange q :=
  ⟨h.1, h.2.1, h.2.2.1, h.2.2.2.1, hrun, h.2.2.2.2.2⟩

theorem Recipe.period_pos {r : Recipe} (h : r.InRange) : 0 < r.period := h.2.2.2.1.1

/-- The trim that trim_start sets is within the range of a trim. -/
theorem startTrim_inRange {r : Recipe} (h : r.InRange) (held : Int) :
    -64 ≤ startTrim r held ∧ startTrim r held ≤ 63 := by
  obtain ⟨-, -, -, -, -, ⟨hmin, hmin'⟩, ⟨hmax, hmax'⟩, -⟩ := h
  unfold startTrim
  split
  · have hmid : (r.trimMin + r.trimMax).tdiv 2 = (r.trimMin + r.trimMax) / 2 ∨
        (r.trimMin + r.trimMax).tdiv 2 = (r.trimMin + r.trimMax) / 2 + 1 ∧ (r.trimMin + r.trimMax) % 2 ≠ 0 := by
      rw [Int.tdiv_eq_ediv]
      split <;> simp
      omega
    omega
  · unfold clampInt
    omega

/-- A restarted lane is in range of the recipe that it takes (R111). -/
theorem Lane.inRange_restartedUnder {r : Recipe} {p : Nat} {x : Lane} (hr : r.InRange) (hx : x.InRange p) (i : SlotNo) :
    (x.restartedUnder r i).InRange r.period := by
  obtain ⟨-, htpm, hpulses, hperiod, -, hrest⟩ := id hx
  have hstart : -64 ≤ startTrim r x.trim ∧ startTrim r x.trim ≤ 63 := startTrim_inRange hr x.trim
  unfold Lane.restartedUnder
  cases hstate : x.state with
  | run =>
    exact ⟨hstart, htpm, ⟨Nat.zero_le _, Nat.zero_le _⟩, ⟨Nat.zero_le _, le_rfl, le_rfl⟩,
      fun _ => Recipe.period_pos hr, hrest⟩
  | splicing | fault =>
    exact ⟨hstart, htpm, hpulses, hperiod, nofun, hrest⟩
  | idle | threading | stopping =>
    exact ⟨hx.1, htpm, hpulses, hperiod, nofun, hrest⟩

theorem Lane.inRange_reset (position : Option PosNo) (p : Nat) : (Lane.reset position).InRange p := by
  simp [Lane.InRange, Lane.reset, Counters.zero]

/-- A lane with its working state cleared is in range of any recipe. -/
theorem Lane.inRange_softReset {p q : Nat} {x : Lane} (hx : x.InRange p) : x.softReset.InRange q :=
  ⟨hx.1, (Lane.inRange_reset x.position q).2⟩

theorem CalRecord.inRange_reset (pc : Nat) : CalRecord.reset.InRange pc := ⟨by decide, by decide, by decide, nofun, nofun⟩

/-- A record that runs no pass is in range for any number of pulses. -/
theorem CalRecord.inRange_of_not_running {pc pc' : Nat} {c : CalRecord} (h : c.InRange pc)
    (hstop : c.running = false) : c.InRange pc' := by
  simp only [CalRecord.running, Bool.or_eq_false_iff, beq_eq_false_iff_ne] at hstop
  exact ⟨h.1, h.2.1, h.2.2.1, fun ha => absurd ha hstop.1, fun hb => absurd hb hstop.2⟩

/-! ### The law under single updates -/

theorem workLaw_modLane (l : LaneNo) (f : Lane → Lane)
    (hf : (s.lane l).InRange (s.activeRecipe l).period →
      (f (s.lane l)).InRange (s.recipe (f (s.lane l)).slot).period) (hs : WorkRangeLaw s) : WorkRangeLaw (s.modLane l f) := by
  refine ⟨fun m => ?_, hs.2⟩
  rw [State.activeRecipe, State.modLane_lane]
  split
  · next h => subst h; exact hf (hs.1 m)
  · exact hs.1 m

/-- A change that leaves the slot and stays in range under every period keeps the law. -/
theorem workLaw_modLane_same (l : LaneNo) (f : Lane → Lane) (hslot : (f (s.lane l)).slot = (s.lane l).slot)
    (hf : ∀ p, (s.lane l).InRange p → (f (s.lane l)).InRange p) (hs : WorkRangeLaw s) : WorkRangeLaw (s.modLane l f) :=
  workLaw_modLane l f (fun h => by rw [hslot]; exact hf _ h) hs

theorem workLaw_modCal (k : PosNo) (f : CalRecord → CalRecord)
    (hf : (s.cal k).InRange (s.position k).pc → (f (s.cal k)).InRange (s.position k).pc) (hs : WorkRangeLaw s) :
    WorkRangeLaw (s.modCal k f) := by
  refine ⟨hs.1, fun j => ?_⟩
  rw [State.modCal_cal]
  split
  · next h => subst h; exact hf (hs.2 j)
  · exact hs.2 j

theorem workLaw_of_frame (hl : t.lanes = s.lanes) (hp : ∀ k, (t.position k).pc = (s.position k).pc)
    (hc : t.cals = s.cals) (hr : t.recipes = s.recipes) (hs : WorkRangeLaw s) : WorkRangeLaw t := by
  have hlane : ∀ l, t.lane l = s.lane l := lane_of_lanes hl
  have hrec : ∀ i, t.recipe i = s.recipe i := fun i => by rw [State.recipe, hr, State.recipe]
  have hcal : ∀ k, t.cal k = s.cal k := fun k => by rw [State.cal, hc, State.cal]
  refine ⟨fun l => ?_, fun k => ?_⟩
  · rw [State.activeRecipe, hlane, hrec]
    exact hs.1 l
  · rw [hcal, hp]
    exact hs.2 k

/-- Lanes that change their position alone, and positions that keep their pulses, keep the law. -/
theorem workLaw_of_lanes (hl : ∀ l, ∃ k, t.lane l = { s.lane l with position := k })
    (hp : ∀ k, (t.position k).pc = (s.position k).pc) (hc : t.cals = s.cals) (hr : t.recipes = s.recipes)
    (hs : WorkRangeLaw s) : WorkRangeLaw t := by
  have hrec : ∀ i, t.recipe i = s.recipe i := fun i => by rw [State.recipe, hr, State.recipe]
  have hcal : ∀ k, t.cal k = s.cal k := fun k => by rw [State.cal, hc, State.cal]
  refine ⟨fun l => ?_, fun k => ?_⟩
  · obtain ⟨k, hk⟩ := hl l
    rw [State.activeRecipe, hrec, hk]
    exact hs.1 l
  · rw [hcal, hp]
    exact hs.2 k

theorem workLaw_raise {k : NoticeKind} {ls : LaneSet} (hs : WorkRangeLaw s) : WorkRangeLaw (State.raise k ls s) := hs

theorem workLaw_setStartTrim {l : LaneNo} (hr : RangeLaw s) (hs : WorkRangeLaw s) : WorkRangeLaw (setStartTrim l s) := by
  unfold setStartTrim
  dsimp only
  split
  · exact hs
  · exact workLaw_modLane_same l (fun x => { x with trim := startTrim (s.activeRecipe l) (s.lane l).trim }) rfl
      (fun _ h => ⟨startTrim_inRange (hr.1 _) _, h.2⟩) hs

theorem workLaw_switchLane {l : LaneNo} {i : SlotNo} (hr : RangeLaw s) (hs : WorkRangeLaw s) :
    WorkRangeLaw (switchLane l i s) := by
  have hrec : (switchLane l i s).recipe = s.recipe := funext fun j => switchLane_recipe l i j s
  refine ⟨fun m => ?_, fun k => ?_⟩
  · rw [State.activeRecipe, hrec]
    by_cases h : m = l
    · subst h
      rw [switchLane_lane, restartedUnder_slot]
      exact Lane.inRange_restartedUnder (hr.1 i) (hs.1 m) i
    · rw [switchLane_lane_ne h]
      exact hs.1 m
  · have hsame : ∀ u : State, ((switchLane l i u).cal k, (switchLane l i u).position k) = (u.cal k, u.position k) := by
      intro u
      unfold switchLane setStartTrim
      dsimp only
      (repeat' split) <;> rfl
    obtain ⟨hc, hp⟩ := Prod.mk.inj (hsame s)
    rw [hc, hp]
    exact hs.2 k

/-! ### Closing a pass -/

theorem workLaw_finishCal {k : PosNo} {r : CalResult} {cause : Option CalCause} (hs : WorkRangeLaw s) :
    WorkRangeLaw (finishCal k r cause s) :=
  workLaw_modCal k (fun c => { c with state := .done, result := some r, cause := cause })
    (fun h => ⟨h.1, h.2.1, h.2.2.1, nofun, nofun⟩) hs

/-- All that the law of ranges asks of a record whose pass closes. -/
abbrev CalRecord.Sized (c : CalRecord) : Prop :=
  (1 ≤ c.n.getD 1 ∧ c.n.getD 1 ≤ 64) ∧ (1 ≤ c.calTol.getD 1 ∧ c.calTol.getD 1 ≤ 50) ∧ c.edges ≤ 4097

/-- The law with one record set aside that only needs its sizes. -/
abbrev WorkRangeLawBut (k : PosNo) (s : State) : Prop :=
  (∀ l : LaneNo, (s.lane l).InRange (s.activeRecipe l).period) ∧
  (∀ j, j ≠ k → (s.cal j).InRange (s.position j).pc) ∧ (s.cal k).Sized

theorem workLawBut_modCal {k : PosNo} (f : CalRecord → CalRecord) (hf : (s.cal k).Sized → (f (s.cal k)).Sized)
    (hs : WorkRangeLawBut k s) : WorkRangeLawBut k (s.modCal k f) := by
  refine ⟨hs.1, fun j hj => ?_, ?_⟩
  · rw [State.modCal_cal, if_neg hj]
    exact hs.2.1 j hj
  · rw [State.modCal_cal_self]
    exact hf hs.2.2

theorem workLaw_of_but {k : PosNo} (f : CalRecord → CalRecord)
    (hf : (s.cal k).Sized → (f (s.cal k)).InRange (s.position k).pc) (hs : WorkRangeLawBut k s) :
    WorkRangeLaw (s.modCal k f) := by
  refine ⟨hs.1, fun j => ?_⟩
  rw [State.modCal_cal]
  split
  · next h => subst h; exact hf hs.2.2
  · next h => exact hs.2.1 j h

theorem workLaw_finishCal_but {k : PosNo} {r : CalResult} {cause : Option CalCause} (hs : WorkRangeLawBut k s) :
    WorkRangeLaw (finishCal k r cause s) :=
  workLaw_of_but (fun c => { c with state := .done, result := some r, cause := cause })
    (fun h => ⟨h.1, h.2.1, h.2.2, nofun, nofun⟩) hs

theorem workLaw_passAClose {k : PosNo} (hs : WorkRangeLawBut k s) : WorkRangeLaw (passAClose k s) := by
  unfold passAClose
  dsimp only
  split
  · exact workLaw_finishCal_but (workLawBut_modCal (fun x => { x with nA := some (s.cal k).nRun }) id hs)
  · exact workLaw_of_but (fun x => { x with nA := _, kA := _, state := .passB, edges := 0, nRun := 0 })
      (fun h => ⟨h.1, h.2.1, Nat.zero_le _, nofun, fun _ => Nat.zero_le _⟩) hs

theorem workLaw_passBClose {k : PosNo} (hs : WorkRangeLawBut k s) : WorkRangeLaw (passBClose k s) := by
  have hnB : WorkRangeLawBut k (s.modCal k fun x => { x with nB := some (s.cal k).nRun }) := workLawBut_modCal _ id hs
  unfold passBClose calPass
  dsimp only
  split
  · exact workLaw_finishCal_but hnB
  · have hk := fun kB m => workLawBut_modCal (fun x => { x with kB := some kB, k := some m }) id hnB
    split
    · exact workLaw_finishCal_but (hk _ _)
    · split
      · exact workLaw_finishCal_but (hk _ _)
      · split
        · exact workLaw_finishCal_but (hk _ _)
        · refine workLaw_finishCal_but (workLawBut_modCal (fun c => { c with stored := true }) id ?_)
          obtain ⟨hlanes, hcals, hsized⟩ := hk (passFactor ((s.cal k).n.getD 0) (s.position k).cRef (s.cal k).nRun.toNat)
            (meanFactor ((s.cal k).kA.getD 0)
              (passFactor ((s.cal k).n.getD 0) (s.position k).cRef (s.cal k).nRun.toNat))
          refine ⟨hlanes, fun j hj => ?_, hsized⟩
          rw [State.modPosition_position, if_neg hj]
          exact hcals j hj

theorem CalRecord.edges_bound {pc : Nat} {c : CalRecord} (h : c.InRange pc) (hpc : pc ≤ 64)
    (hn : c.n.getD 0 ≤ c.n.getD 1) : c.n.getD 0 * pc ≤ 4096 :=
  calc c.n.getD 0 * pc ≤ 64 * 64 := Nat.mul_le_mul (hn.trans h.1.2) hpc
    _ = 4096 := rfl

theorem getD_zero_le_getD_one (n : Option Nat) : n.getD 0 ≤ n.getD 1 := by
  cases n <;> simp

/-- A rising edge of a started pass A counts, and closes the pass where it is its last (R45). -/
theorem workLaw_risingEdge {k : PosNo} (hr : RangeLaw s) (hA : (s.cal k).state = .passA) (hstart : (s.cal k).started = true)
    (hs : WorkRangeLaw s) : WorkRangeLaw (passACloseIfMet k (s.modCal k fun c => { c with edges := c.edges + 1 })) := by
  have hc := hs.2 k
  have hbound := CalRecord.edges_bound hc (hr.2.1 k).2.2.1.2 (getD_zero_le_getD_one _)
  have hleft : (s.cal k).edges < (s.cal k).n.getD 0 * (s.position k).pc := hc.2.2.2.1 hA
  unfold passACloseIfMet
  split
  · refine workLaw_passAClose ⟨hs.1, fun j hj => ?_, ?_⟩
    · rw [State.modCal_cal, if_neg hj]
      exact hs.2 j
    · rw [State.modCal_cal_self]
      exact ⟨hc.1, hc.2.1, by dsimp only; omega⟩
  · next hmet =>
    simp only [passAMet, passAEdges, State.modCal_cal_self, State.modCal_position, hA, hstart, Bool.not_eq_true,
      Bool.and_eq_false_iff, decide_eq_false_iff_not, not_le, beq_self_eq_true, Bool.true_eq_false, false_or] at hmet
    exact workLaw_modCal k (fun c => { c with edges := c.edges + 1 })
      (fun h => ⟨h.1, h.2.1, by dsimp only; omega, fun _ => hmet, fun hB => absurd (hA.symm.trans hB) nofun⟩) hs

/-- A falling edge of pass B counts, and closes the pass where it is its last (R47). -/
theorem workLaw_fallingEdge {k : PosNo} (hr : RangeLaw s) (hB : (s.cal k).state = .passB)
    (hs : WorkRangeLaw s) : WorkRangeLaw (passBCloseIfMet k (s.modCal k fun c => { c with edges := c.edges + 1 })) := by
  have hc := hs.2 k
  have hbound := CalRecord.edges_bound hc (hr.2.1 k).2.2.1.2 (getD_zero_le_getD_one _)
  have hleft : (s.cal k).edges ≤ (s.cal k).n.getD 0 * (s.position k).pc := hc.2.2.2.2 hB
  unfold passBCloseIfMet
  split
  · refine workLaw_passBClose ⟨hs.1, fun j hj => ?_, ?_⟩
    · rw [State.modCal_cal, if_neg hj]
      exact hs.2 j
    · rw [State.modCal_cal_self]
      exact ⟨hc.1, hc.2.1, by dsimp only; omega⟩
  · next hmet =>
    simp only [passBMet, passAEdges, State.modCal_cal_self, State.modCal_position, hB, Bool.not_eq_true,
      Bool.and_eq_false_iff, decide_eq_false_iff_not, not_le, beq_self_eq_true, Bool.true_eq_false, false_or] at hmet
    exact workLaw_modCal k (fun c => { c with edges := c.edges + 1 })
      (fun h => ⟨h.1, h.2.1, by dsimp only; omega, fun hA => absurd (hB.symm.trans hA) nofun,
        fun _ => by dsimp only; omega⟩) hs

/-! ### Services -/

/-- A change of a recipe that no lane runs under keeps the law. -/
theorem workLaw_setRecipe {i : SlotNo} (r : Recipe) (hfree : slotInUse s i = false) (hs : WorkRangeLaw s) :
    WorkRangeLaw (s.setRecipe i r) := by
  have hfree : ¬ InUse s i := fun h => by simp [(slotInUse_iff s i).2 h] at hfree
  simp only [InUse, not_or, not_exists, not_and] at hfree
  refine ⟨fun l => Lane.inRange_of_period (hs.1 l) fun hrun => ?_, hs.2⟩
  have hslot : (s.lane l).slot ≠ i := hfree.1 l (by rw [show (s.lane l).state = .run from hrun]; nofun)
  rw [State.activeRecipe, State.setRecipe_recipe, if_neg (by exact hslot)]
  exact (hs.1 l).2.2.2.2.1 hrun

/-- A change of a position whose calibration does not run keeps the law. -/
theorem workLaw_modPosition {k : PosNo} (f : Position → Position)
    (hf : (s.cal k).running = false ∨ (f (s.position k)).pc = (s.position k).pc) (hs : WorkRangeLaw s) :
    WorkRangeLaw (s.modPosition k f) := by
  refine ⟨hs.1, fun j => ?_⟩
  rw [State.modPosition_position]
  split
  · next h =>
    subst h
    obtain hstop | hpc := hf
    · exact CalRecord.inRange_of_not_running (hs.2 j) hstop
    · rw [hpc]
      exact hs.2 j
  · exact hs.2 j

theorem workLaw_serveField (ctx : FieldContext) (bs : List Byte) (hs : WorkRangeLaw s) :
    WorkRangeLaw (serveField ctx bs s).state := by
  cases ctx with
  | position k field =>
    simp only [serveField, servePositionField]
    split
    · exact hs
    · next h =>
      simp only [positionFieldRefused, Bool.not_eq_true, Bool.or_eq_false_iff] at h
      exact workLaw_modPosition _ (.inl h.1) hs
  | recipe slot index =>
    simp only [serveField, serveRecipeField]
    split
    · exact hs
    · next hfree => exact workLaw_setRecipe _ (by simpa using hfree) hs
  | pattern slot row =>
    simp only [serveField, servePatternEntry]
    split
    · exact hs
    · next hfree => exact workLaw_setRecipe _ (by simpa using hfree) hs

theorem workLaw_serveCalibrate (bs : List Byte) (hr : RangeLaw s) (hs : WorkRangeLaw s) :
    WorkRangeLaw (serveCalibrate bs s).state := by
  unfold serveCalibrate
  split
  · exact hs
  · next k _ =>
    dsimp only
    split
    · exact hs
    · next hsize =>
      split
      · exact hs
      · split
        · refine workLaw_modCal k _ (fun _ => ⟨?_, ?_, Nat.zero_le _, fun _ => ?_, nofun⟩) hs
          · simp only [calStart, Option.getD_some]; omega
          · simp only [calStart, Option.getD_some]; omega
          · have hpc := (hr.2.1 k).2.2.1.1
            simp only [calStart, Option.getD_some]
            exact Nat.mul_pos (by omega) hpc
        · exact hs

/-! ### The law over a step -/

theorem workLaw_reset (straps : Byte) (lines : BitVec 22) (s : State) : WorkRangeLaw (fullReset straps lines s) := by
  refine ⟨fun l => ?_, fun k => ?_⟩
  · rw [fullReset_lane]
    exact Lane.inRange_reset _ _
  · have hcal : (fullReset straps lines s).cal k = CalRecord.reset := by
      simp [fullReset, State.cal, State.reset]
    rw [hcal]
    exact CalRecord.inRange_reset _

theorem workLaw_laneSwitch {l : LaneNo} (hr : RangeLaw s) (hs : WorkRangeLaw s) : WorkRangeLaw (laneSwitch false l s) := by
  unfold laneSwitch
  split
  · exact hs
  · exact workLaw_switchLane (s := s.modLane l fun x => { x with pendingSlot := none }) hr
      (workLaw_modLane_same l (fun x => { x with pendingSlot := none }) rfl (fun _ h => h) hs)

theorem workLaw_endSwitch {l : LaneNo} (hs : WorkRangeLaw s) :
    WorkRangeLaw ((laneSwitch true l s).modLane l fun x => { x with state := .idle }) := by
  unfold laneSwitch
  split
  · exact workLaw_modLane l (fun x => { x with state := .idle }) 
      (fun h => ⟨h.1, h.2.1, h.2.2.1, h.2.2.2.1, nofun, h.2.2.2.2.2⟩) hs
  · next i _ =>
    refine workLaw_of_frame (s := ((s.modLane l fun x => { x with pendingSlot := none }).modLane l
      (Lane.takeSlot i)).modLane l fun x => { x with state := .idle }) rfl (fun _ => rfl) rfl rfl ?_
    rw [State.modLane_modLane, State.modLane_modLane]
    exact workLaw_modLane l (fun x => { Lane.takeSlot i { x with pendingSlot := none } with state := .idle })
      (fun h => ⟨h.1, h.2.1, h.2.2.1, h.2.2.2.1, nofun, h.2.2.2.2.2⟩) hs

theorem rangeLaw_steady : Steady RangeLaw := rangeLaw_loose.steady

theorem allRangesLaw_steady : Steady AllRangesLaw where
  records s t heq hs := by
    refine ⟨rangeLaw_steady.records s t heq hs.1, ?_⟩
    simp only [State.records, Prod.mk.injEq] at heq
    obtain ⟨hl, hp, hc, hr, -⟩ := heq
    exact workLaw_of_frame hl (fun k => by rw [State.position, hp, State.position]) hc hr hs.2
  mild l f s hf hs := by
    refine ⟨rangeLaw_steady.mild l f s hf hs.1, workLaw_modLane_same l f ?_ (hf _).2 hs.2⟩
    have h := (hf (s.lane l)).1
    simp only [Lane.anchor, Prod.mk.injEq] at h
    exact h.2.2.2.2.1
  calMild k f s hf hs := ⟨rangeLaw_steady.calMild k f s hf hs.1, workLaw_modCal k f (hf _ _) hs.2⟩
  tally l v s hv hs := ⟨rangeLaw_steady.tally l v s hv hs.1, workLaw_modLane_same l _ rfl (fun _ h => h) hs.2⟩
  drawTally v s hv hs := ⟨rangeLaw_steady.drawTally v s hv hs.1, hs.2⟩
  laneState l st s hidle hrun hperiod hs := by
    refine ⟨rangeLaw_steady.laneState l st s hidle hrun hperiod hs.1, workLaw_modLane l _ (fun h => ?_) hs.2⟩
    refine ⟨h.1, h.2.1, h.2.2.1, h.2.2.2.1, fun heq => ?_, h.2.2.2.2.2⟩
    exact (hperiod heq).symm ▸ Recipe.period_pos (hs.1.1 _)
  enterRun l s hth hs := by
    refine ⟨rangeLaw_steady.enterRun l s hth hs.1, ?_⟩
    have htrim : WorkRangeLaw (setStartTrim l s) := workLaw_setStartTrim hs.1 hs.2
    refine workLaw_of_frame (s := ((setStartTrim l s).modLane l Lane.restartWindow).modLane l
      fun x => { x with state := .run }) rfl (fun _ => rfl) rfl rfl ?_
    rw [State.modLane_modLane]
    refine workLaw_modLane l _ (fun h => ⟨h.1, h.2.1, ⟨Nat.zero_le _, Nat.zero_le _⟩,
      ⟨Nat.zero_le _, le_rfl, le_rfl⟩, fun _ => ?_, h.2.2.2.2.2⟩) htrim
    exact Recipe.period_pos (by rw [setStartTrim_recipe]; exact hs.1.1 _)
  startRecord l s hidle hpos hcons hs := by
    refine ⟨rangeLaw_steady.startRecord l s hidle hpos hcons hs.1, ?_⟩
    refine workLaw_of_frame (s := (s.modLane l (startRecord s.line.mode s.line.lineSlot)).modLane l
      fun x => { x with state := .threading }) rfl (fun _ => rfl) rfl rfl ?_
    rw [State.modLane_modLane]
    refine workLaw_modLane l _ (fun h => ?_) hs.2
    obtain ⟨-, hreset⟩ := Lane.inRange_reset none (startRecipe s l).period
    exact ⟨h.1, hreset.1, hreset.2.1, hreset.2.2.1, nofun, hreset.2.2.2.2⟩
  trim l v s hlo hhi hs := by
    refine ⟨rangeLaw_steady.trim l v s hlo hhi hs.1, workLaw_modLane_same l _ rfl (fun _ h => ⟨?_, h.2⟩) hs.2⟩
    obtain ⟨-, -, -, -, -, ⟨hmin, -⟩, ⟨-, hmax⟩, -⟩ := hs.1.1 (s.lane l).slot
    exact ⟨hmin.trans hlo, hhi.trans hmax⟩
  countWindow l b slip s hrun hne hs := by
    refine ⟨rangeLaw_steady.countWindow l b slip s hrun hne hs.1, workLaw_modLane l _ (fun h => ?_) hs.2⟩
    have hlt : (s.lane l).periodIndex < (s.activeRecipe l).period := h.2.2.2.2.1 hrun
    have hmax : (s.activeRecipe l).period ≤ 16 := (hs.1.1 (s.lane l).slot).2.2.2.1.2
    obtain ⟨-, hhigh, hlow⟩ := h.2.2.2.1
    refine ⟨h.1, h.2.1, h.2.2.1, ⟨?_, ?_, ?_⟩, fun _ => ?_, h.2.2.2.2.2⟩
    · simp only [Machine.countWindow]; omega
    · simp only [Machine.countWindow]; split <;> omega
    · simp only [Machine.countWindow]; split <;> omega
    · show (s.lane l).periodIndex + 1 < (s.activeRecipe l).period
      omega
  coilSwitch isEnd l s hs := by
    refine ⟨rangeLaw_steady.coilSwitch isEnd l s hs.1, ?_⟩
    cases isEnd
    · show WorkRangeLaw (freshPlan l (laneSwitch false l s))
      exact workLaw_modLane_same l (fun x => { x with plan := ⟨.watching, _, .normal⟩ }) rfl (fun _ h => h)
        (workLaw_laneSwitch hs.1 hs.2)
    · exact workLaw_endSwitch hs.2
  lineSwitch i s hi hs := by
    refine ⟨rangeLaw_steady.lineSwitch i s hi hs.1, ?_⟩
    have hboth : AllRangesLaw (lineSwitch i s) := by
      have hfold : ∀ (ls : List LaneNo) (u : State), AllRangesLaw u →
          AllRangesLaw (forLanes ls (fun l t => switchLane l i t) u) := by
        intro ls
        induction ls with
        | nil => exact fun u hu => hu
        | cons l ls ih =>
          intro u hu
          refine ih _ ⟨?_, workLaw_switchLane hu.1 hu.2⟩
          exact rangeLaw_loose.view u _ (switchLane_vitals l i u) (noneStarted_of_laneStates (switchLane_laneStates l i u)) hu.1
      exact hfold (lanesInUse s) { s with line := { s.line with lineSlot := i, pendingLineSlot := none } } hs
    exact hboth.2
  assignLane l i s hidle hs := by
    refine ⟨rangeLaw_steady.assignLane l i s hidle hs.1, workLaw_modLane l _ (fun h => ?_) hs.2⟩
    exact Lane.inRange_of_period (x := { s.lane l with slot := i, pendingSlot := none }) h
      fun hrun => absurd (hidle.symm.trans hrun) nofun
  assignAtCut target i s hcons hs := by
    refine ⟨rangeLaw_steady.assignAtCut target i s hcons hs.1, ?_⟩
    cases target with
    | lane l => exact workLaw_modLane_same l (fun x => { x with pendingSlot := some i }) rfl (fun _ h => h) hs.2
    | line => exact hs.2
  changeMode m s hs := by
    refine ⟨rangeLaw_steady.changeMode m s hs.1, fun l => ?_, hs.2.2⟩
    rw [State.activeRecipe, changeMode_lane]
    exact hs.2.1 l
  softResetJobs s hs := by
    refine ⟨rangeLaw_steady.softResetJobs s hs.1, fun l => ?_, fun k => ?_⟩
    · rw [softResetJobs_lane]
      exact Lane.inRange_softReset (hs.2.1 l)
    · have hcal : (softResetJobs s).cal k = CalRecord.reset := by simp [softResetJobs, State.cal]
      rw [hcal]
      exact CalRecord.inRange_reset _
  reset straps lines s := ⟨rangeLaw_steady.reset straps lines s, workLaw_reset straps lines s⟩
  mapLane bs s hs := by
    have hframe := serveMapLane_frame bs s
    refine ⟨rangeLaw_steady.mapLane bs s hs.1, workLaw_of_lanes (serveMapLane_lane bs s) (fun k => ?_)
      (congrArg State.cals hframe :) (congrArg State.recipes hframe :) hs.2⟩
    obtain ⟨m, hm⟩ := serveMapLane_position bs s k
    rw [hm]
  setGeometry bs s hs := by
    refine ⟨rangeLaw_steady.setGeometry bs s hs.1, ?_⟩
    have hframe := (serveSetGeometry_frame bs s).1
    exact workLaw_of_frame (congrArg State.lanes hframe :) (fun k => (congrArg (fun u : State => (u.position k).pc) hframe :))
      (congrArg State.cals hframe :) (congrArg State.recipes hframe :) hs.2
  setFactor bs s hs := by
    refine ⟨rangeLaw_steady.setFactor bs s hs.1, ?_⟩
    unfold serveSetFactor
    split
    · exact hs.2
    · dsimp only
      split
      · exact hs.2
      · exact workLaw_modPosition _ (.inr rfl) hs.2
  field ctx bs s hs := ⟨rangeLaw_steady.field ctx bs s hs.1, workLaw_serveField ctx bs hs.2⟩
  calStart bs s hs := ⟨rangeLaw_steady.calStart bs s hs.1, workLaw_serveCalibrate bs hs.1 hs.2⟩
  calFactor k v s hlo hhi hs :=
    ⟨rangeLaw_steady.calFactor k v s hlo hhi hs.1, workLaw_modPosition (fun x => { x with k := v }) (.inr rfl) hs.2⟩
  risingEdge k s hA hstart hs := ⟨rangeLaw_steady.risingEdge k s hA hstart hs.1, workLaw_risingEdge hs.1 hA hstart hs.2⟩
  fallingEdge k s hB hs := ⟨rangeLaw_steady.fallingEdge k s hB hs.1, workLaw_fallingEdge hs.1 hB hs.2⟩
  handMark m s hs := by
    refine ⟨rangeLaw_steady.handMark m s hs.1, ?_⟩
    unfold Machine.handMark
    split
    · exact workLaw_modLane_same m.lane (fun x => { x with marksLost := true }) rfl (fun _ h => h) hs.2
    · exact hs.2
  extendZone l i lw sense s hs := ⟨rangeLaw_steady.extendZone l i lw sense s hs.1, hs.2⟩
  closeMark l extent s hs := ⟨rangeLaw_steady.closeMark l extent s hs.1, hs.2⟩
  cutLane isEnd l s hs := by
    refine ⟨rangeLaw_steady.cutLane isEnd l s hs.1, ?_⟩
    exact workLaw_modLane_same (s := s.setMarkList l (marksStay isEnd (cutPosition s l) (s.markList l))) l _ rfl
      (fun _ h => h) hs.2
  cuts f s hq hc hr hs := ⟨rangeLaw_steady.cuts f s hq hc hr hs.1, hs.2⟩
  joinCut w due late s hs := by
    refine ⟨rangeLaw_steady.joinCut w due late s hs.1, ?_⟩
    unfold Machine.joinCut
    split <;> exact hs.2
  takePackage pkg lanes fits s h1 h2 h3 hs := ⟨rangeLaw_steady.takePackage pkg lanes fits s h1 h2 h3 hs.1, hs.2⟩
  release s hs := by
    have hframe := serveReleasePackage_frame s
    exact ⟨rangeLaw_steady.release s hs.1, workLaw_of_frame (congrArg State.lanes hframe :)
      (fun k => (congrArg (fun u : State => (u.position k).pc) hframe :)) (congrArg State.cals hframe :)
      (congrArg State.recipes hframe :) hs.2⟩

/-- Settles O60: the working ranges of lanes and calibration records are kept by every step (R2, R42, R64). -/
theorem stepKeepsLaneAndCalibrationRanges : Obligations.StepKeepsLaneAndCalibrationRanges :=
  fun _ _ hr hs hstep => (allRangesLaw_steady.kept.step hstep ⟨hr, hs⟩).2

end Sys2Proof.Machine
end


section
/-! PROOFS. One turn of the arbiter (09_station_ports.md R168): what the service of a waiting step leaves of the ports,
whose step comes next, and who waits afterwards. -/

namespace Sys2Proof.Machine

variable {s t : State} {p q r : PortNo}

/-! ### What a service leaves of the ports -/

/-- What no service but SOFT_RESET's changes of the port it serves: its role, its transfer, and the bytes and bits
that its signals bring. -/
def Port.wire (P : Port) : Role × Bool × List Bool × Option Byte × List HeldByte :=
  (P.role, P.transferOpen, P.partialBits, P.lastOut, P.held)

/-- An operation on behalf of port `q` that leaves every other port but its notices, and the wire of `q`. -/
structure PortsAlike (q : PortNo) (s t : State) : Prop where
  others : ∀ r, r ≠ q → (t.port r).core = (s.port r).core
  own : (t.port q).wire = (s.port q).wire
  turn : t.turn = s.turn
  pending : t.pending = s.pending

theorem PortsAlike.of_fixed (h : t.fixed = s.fixed) : PortsAlike q s t where
  others r _ := port_core_of_fixed h r
  own := (congrArg Port.wire (port_core_of_fixed h q) :)
  turn := turn_of_fixed h
  pending := pending_of_fixed h

theorem PortsAlike.of_ports (hp : t.ports = s.ports) (ht : t.turn = s.turn) (hq : t.pending = s.pending) :
    PortsAlike q s t where
  others r _ := by rw [State.port, hp, State.port]
  own := by rw [State.port, hp, State.port]
  turn := ht
  pending := hq

theorem PortsAlike.modPort (h : PortsAlike q s t) (f : Port → Port) (hf : ∀ P, (f P).wire = P.wire) :
    PortsAlike q s (t.modPort q f) where
  others r hr := by rw [State.modPort_port, if_neg hr]; exact h.others r hr
  own := by rw [State.modPort_port_self, hf]; exact h.own
  turn := h.turn
  pending := h.pending

/-- A service of port `q` other than SOFT_RESET's: its step waits no more. -/
structure Answer (q : PortNo) (s t : State) : Prop extends PortsAlike q s t where
  served : (t.port q).isWaiting = false

theorem PortsAlike.answer (h : PortsAlike q s t) (f : Port → Port) (hf : ∀ P, (f P).wire = P.wire)
    (hw : ∀ P, (f P).isWaiting = false) : Answer q s (t.modPort q f) where
  toPortsAlike := h.modPort f hf
  served := by rw [State.modPort_port_self]; exact hw _

theorem PortsAlike.action {o : Served} (h : PortsAlike q s o.state) : Answer q s (finishAction q o) :=
  h.answer _ (fun _ => rfl) (fun _ => rfl)

theorem PortsAlike.read {o : ReadOut} (h : PortsAlike q s o.state) : Answer q s (finishRead q o) :=
  h.answer _ (fun _ => rfl) (fun _ => rfl)

theorem PortsAlike.refl (q : PortNo) (s : State) : PortsAlike q s s := .of_fixed rfl

theorem answer_finishHeader (ctx : Option FieldContext) : Answer q s (finishHeader q ctx s) := by
  unfold finishHeader
  refine (PortsAlike.refl q s).answer _ (fun _ => ?_) (fun _ => ?_) <;> cases ctx <;> rfl

theorem answer_finishField {ctx : FieldContext} {o : Served} (h : PortsAlike q s o.state) :
    Answer q s (finishField q ctx o) := by
  unfold finishField
  refine h.answer _ (fun _ => rfl) (fun P => ?_)
  simp only [Port.isWaiting]
  cases (if o.result = .ok then ctx.next else none) <;> rfl

theorem readLane_state (bs : List Byte) (s : State) : (readLane bs s).state = s := by
  unfold readLane; split <;> rfl

theorem readMarks_state (bs : List Byte) (s : State) : (readMarks bs s).state = s := by
  unfold readMarks
  split
  · rfl
  · dsimp only; split <;> rfl

theorem readPackage_state (s : State) : (readPackage s).state = s := by
  unfold readPackage; split <;> rfl

theorem readTrim_state (bs : List Byte) (s : State) : (readTrim bs s).state = s := by
  unfold readTrim; split <;> rfl

theorem readCal_state (bs : List Byte) (s : State) : (readCal bs s).state = s := by
  unfold readCal; split <;> rfl

theorem answer_read {o : ReadOut} (h : o.state = s) : Answer q s (finishRead q o) :=
  PortsAlike.read (by rw [h]; exact .refl q s)

theorem answer_action {o : Served} (h : o.state.fixed = s.fixed) : Answer q s (finishAction q o) :=
  (PortsAlike.of_fixed h).action

theorem portsAlike_serveForceLine (bs : List Byte) : PortsAlike q s (serveForceLine bs s).state := by
  unfold serveForceLine
  split
  · exact .refl q s
  · split
    · exact .refl q s
    · exact .of_ports rfl rfl rfl

/-- The service of every command but SOFT_RESET answers at its port. -/
theorem serveCommand_answer {c : Command} (hc : c ≠ .softReset) (bs : List Byte) (s : State) :
    Answer q s (serveCommand q c bs s) := by
  cases c
  case softReset => exact absurd rfl hc
  case setPosition | writeRecipe | writePattern => exact answer_finishHeader _
  case readStatus => exact (PortsAlike.refl q s).answer _ (fun _ => rfl) (fun _ => rfl)
  case readNotices =>
    exact PortsAlike.read (o := readNotices q s)
      ((PortsAlike.refl q s).modPort (fun P => { P with notices := NoticeSet.empty }) fun _ => rfl)
  case setInterest =>
    exact PortsAlike.action (o := serveSetInterest q bs s)
      ((PortsAlike.refl q s).modPort (fun P => { P with interest := _ }) fun _ => rfl)
  case forceLine => exact (portsAlike_serveForceLine bs).action
  case readLane => exact answer_read (readLane_state bs s)
  case readMarks => exact answer_read (readMarks_state bs s)
  case readPackage => exact answer_read (readPackage_state s)
  case readTrim => exact answer_read (readTrim_state bs s)
  case readCal => exact answer_read (readCal_state bs s)
  case readLine | readRow | readCuts => exact answer_read rfl
  all_goals exact answer_action (by simp)

/-- The step that waits at a port is SOFT_RESET's. -/
def Port.asksSoftReset (P : Port) : Bool := P.context.isNone && P.command == some .softReset

theorem serveStep_softReset (h : (s.port q).asksSoftReset = true) :
    serveStep q s = softReset q { s with turn := q } := by
  simp only [Port.asksSoftReset, Bool.and_eq_true, Option.isNone_iff_eq_none, beq_iff_eq] at h
  simp [serveStep, h.1, h.2, serveCommand]

/-- The service of a waiting step other than SOFT_RESET answers at its port, and the turn pointer names it. -/
theorem serveStep_answer (h : (s.port q).asksSoftReset = false) :
    Answer q { s with turn := q } (serveStep q s) := by
  unfold serveStep
  dsimp only
  split
  · next ctx _ =>
    have hframe := serveField_frame ctx (s.port q).stepBytes { s with turn := q }
    exact answer_finishField (.of_ports (congrArg State.ports hframe :) (congrArg State.turn hframe :)
      (congrArg State.pending hframe :))
  · next hctx =>
    split
    · next c hc =>
      refine serveCommand_answer (fun heq => ?_) _ _
      simp [Port.asksSoftReset, hctx, hc, heq] at h
    · exact (PortsAlike.refl q { s with turn := q }).answer _ (fun _ => rfl) (fun _ => rfl)

theorem isWaiting_of_core {P Q : Port} (h : P.core = Q.core) : P.isWaiting = Q.isWaiting :=
  (congrArg Port.isWaiting h :)

/-- SOFT_RESET at the ports (R172): the one that gave it, and the others. -/
theorem softReset_port (q : PortNo) (s : State) (r : PortNo) :
    (softReset q s).port r = if r = q then (s.port r).softReset.softResetOwn else (s.port r).softReset := by
  have hjobs : ∀ r, (softResetJobs s).port r = s.port r := fun _ => rfl
  rw [softReset, State.modPort_port]
  split
  · next h => subst h; rw [State.mapPorts_port, hjobs]
  · rw [State.mapPorts_port, hjobs]

theorem softReset_quiet (q : PortNo) (s : State) : Quiet (softReset q s) := fun r => by
  rw [softReset_port]
  split <;> rfl

/-! ### Held bytes -/

/-- Draining changes its own port only. -/
theorem drain_port_ne (hr : r ≠ p) (hs : List HeldByte) (s : State) : (drain p hs s).port r = s.port r := by
  induction hs generalizing s with
  | nil => rfl
  | cons b bs ih =>
    unfold drain
    split
    · rw [State.modPort_port, if_neg hr]
    · rw [ih, State.modPort_port, if_neg hr]

theorem drainHeld_port_ne (hr : r ≠ p) (s : State) : (drainHeld p s).port r = s.port r := by
  rw [drainHeld, drain_port_ne hr, State.modPort_port, if_neg hr]

theorem drain_turn (p : PortNo) (hs : List HeldByte) (s : State) :
    (drain p hs s).turn = s.turn ∧ (drain p hs s).pending = s.pending := by
  induction hs generalizing s with
  | nil => exact ⟨rfl, rfl⟩
  | cons b bs ih =>
    unfold drain
    split
    · exact ⟨rfl, rfl⟩
    · exact ih _

/-- A port that holds one byte at most and does not wait takes it, and holds none. -/
theorem drainHeld_one {b : HeldByte} (hw : (s.port p).isWaiting = false) (hh : (s.port p).held = [b]) :
    drainHeld p s = s.modPort p fun P => Port.takeByte b { P with held := [] } := by
  have hidle : ((s.modPort p fun P => { P with held := [] }).port p).isWaiting = false := by
    rw [State.modPort_port_self]; exact hw
  rw [drainHeld, hh, drain, hidle, if_neg nofun, drain, State.modPort_modPort]

@[simp] theorem Port.takeByte_wire (b : HeldByte) (P : Port) : (P.takeByte b).wire = P.wire := by
  unfold Port.takeByte
  split
  · unfold Port.takeCommand
    split
    · rfl
    · next c _ =>
      cases c <;> simp only [Port.openNamed] <;> (try split) <;> rfl
  · unfold Port.takeData Port.addByte
    split <;> rfl

/-! ### The order of the arbiter -/

/-- The port found next stands at the first place after the turn pointer at which a step waits (R168). -/
theorem nextWaiting_place (h : nextWaiting s = some q) : ∃ n : Nat, n < 4 ∧ q.val = (s.turn.val + 1 + n) % 4 ∧
    (s.port q).isWaiting = true ∧
    ∀ m < n, ∀ r : PortNo, r.val = (s.turn.val + 1 + m) % 4 → (s.port r).isWaiting = false := by
  have hplace : ∀ (u r : PortNo) (m : Fin 4), r.val = (u.val + 1 + m.val) % 4 ↔
      r = if m = 0 then u + 1 else if m = 1 then u + 2 else if m = 2 then u + 3 else u := by decide
  simp only [nextWaiting, turnOrder, List.find?_cons, List.find?_nil] at h
  have hbefore : ∀ n : Fin 4, (∀ m < n, (s.port (if m = 0 then s.turn + 1 else if m = 1 then s.turn + 2
      else if m = 2 then s.turn + 3 else s.turn)).isWaiting = false) →
      ∀ m < n.val, ∀ r : PortNo, r.val = (s.turn.val + 1 + m) % 4 → (s.port r).isWaiting = false := by
    intro n hall m hm r hr
    have hm4 : m < 4 := hm.trans n.isLt
    rw [(hplace s.turn r ⟨m, hm4⟩).1 hr]
    exact hall ⟨m, hm4⟩ hm
  split at h
  · next h1 =>
    obtain rfl := Option.some_inj.1 h
    exact ⟨0, by omega, (hplace _ _ 0).2 rfl, h1, hbefore 0 fun m hm => absurd hm (by omega)⟩
  · next h1 =>
    split at h
    · next h2 =>
      obtain rfl := Option.some_inj.1 h
      refine ⟨1, by omega, (hplace _ _ 1).2 rfl, h2, hbefore 1 fun m hm => ?_⟩
      obtain rfl : m = 0 := by omega
      simpa using h1
    · next h2 =>
      split at h
      · next h3 =>
        obtain rfl := Option.some_inj.1 h
        refine ⟨2, by omega, (hplace _ _ 2).2 rfl, h3, hbefore 2 fun m hm => ?_⟩
        obtain rfl | rfl : m = 0 ∨ m = 1 := by omega
        · simpa using h1
        · simpa using h2
      · next h3 =>
        split at h
        · next h4 =>
          obtain rfl := Option.some_inj.1 h
          refine ⟨3, by omega, (hplace _ _ 3).2 rfl, h4, hbefore 3 fun m hm => ?_⟩
          obtain rfl | rfl | rfl : m = 0 ∨ m = 1 ∨ m = 2 := by omega
          · simpa using h1
          · simpa using h2
          · simpa using h3
        · cases h

theorem mem_turnOrder (u p : PortNo) : p ∈ turnOrder u := by
  revert u p
  decide

/-- Where a step waits the arbiter finds one. -/
theorem exists_nextWaiting (h : (s.port p).isWaiting = true) : ∃ q, nextWaiting s = some q := by
  cases hn : nextWaiting s with
  | some q => exact ⟨q, rfl⟩
  | none =>
    have hnone := List.find?_eq_none.1 hn p (mem_turnOrder _ _)
    exact absurd h hnone

theorem isWaiting_of_nextWaiting (h : nextWaiting s = some q) : (s.port q).isWaiting = true :=
  List.find?_some (p := fun p => (s.port p).isWaiting) h

/-- The port that the turn pointer names comes last (R168). -/
theorem nextWaiting_ne_turn (hr : (s.port r).isWaiting = true) (hne : r ≠ s.turn) : nextWaiting s ≠ some s.turn := by
  intro h
  have hmem : ∀ u r : PortNo, r ≠ u → r = u + 1 ∨ r = u + 2 ∨ r = u + 3 := by decide
  have hturn : ∀ u : PortNo, u + 1 ≠ u ∧ u + 2 ≠ u ∧ u + 3 ≠ u := by decide
  obtain ⟨h1, h2, h3⟩ := hturn s.turn
  simp only [nextWaiting, turnOrder, List.find?_cons, List.find?_nil] at h
  split at h
  · exact h1 (Option.some_inj.1 h)
  · split at h
    · exact h2 (Option.some_inj.1 h)
    · split at h
      · exact h3 (Option.some_inj.1 h)
      · obtain rfl | rfl | rfl := hmem _ _ hne <;> simp_all

theorem ofCode_eq_some_iff (b : Byte) (c : Command) : Command.ofCode b = some c ↔ b = c.code := by
  constructor
  · intro h
    have hcode : (c.code == b) = true := List.find?_some (p := fun c : Command => c.code == b) h
    exact (beq_iff_eq.1 hcode).symm
  · rintro rfl
    exact Command.ofCode_code c

/-- What one turn of the arbiter leaves: the pointer on the port served, the other ports' waiting steps unless a
SOFT_RESET was served, and the queue. -/
theorem serveNext_spec (h : nextWaiting s = some q) :
    (serveNext s).turn = q ∧ (serveNext s).pending = s.pending ∧
    ((s.port q).asksSoftReset = false → ∀ r, r ≠ q → ((serveNext s).port r).core = (s.port r).core) := by
  have hserve : serveNext s = drainHeld q (serveStep q s) := by rw [serveNext, h]
  obtain ⟨hturn, hpending⟩ := drain_turn q ((serveStep q s).port q).held
    ((serveStep q s).modPort q fun P => { P with held := [] })
  rw [hserve]
  refine ⟨?_, ?_, fun hreset r hr => ?_⟩
  · rw [drainHeld, hturn]
    cases hreset : (s.port q).asksSoftReset with
    | false => exact (serveStep_answer hreset).turn
    | true => rw [serveStep_softReset hreset]; rfl
  · rw [drainHeld, hpending]
    cases hreset : (s.port q).asksSoftReset with
    | false => exact (serveStep_answer hreset).pending
    | true => rw [serveStep_softReset hreset]; rfl
  · rw [drainHeld_port_ne hr]
    exact (serveStep_answer hreset).others r hr

/-- Settles O2: the turn of the arbiter (R168), from the order of its search and what one service leaves. -/
theorem arbiterServesOneStepInTurn : Obligations.ArbiterServesOneStepInTurn := by
  refine ⟨fun s hp hquiet => ?_, fun s hp ⟨p, hw⟩ => ?_⟩
  · rw [step, hp]
    exact congrArg _ (serveNext_quiet hquiet)
  · obtain ⟨q, hq⟩ := exists_nextWaiting hw
    obtain ⟨n, hn, hplace, hwaits, hbefore⟩ := nextWaiting_place hq
    obtain ⟨hturn, -, hothers⟩ := serveNext_spec hq
    refine ⟨serveNext s, q, n, by rw [step, hp], hturn, hn, hplace, hwaits, hbefore, fun hcode r hr => ?_, ?_⟩
    · refine isWaiting_of_core (hothers ?_ r hr)
      have hne : (s.port q).command ≠ some .softReset := fun hc => by
        obtain ⟨b, hb, hcb⟩ := Option.bind_eq_some_iff.1 hc
        exact hcode (hb.trans (congrArg some ((ofCode_eq_some_iff _ _).1 hcb)))
      simp [Port.asksSoftReset, hne]
    · rintro ⟨r, hr, hwr⟩ hnext
      exact nextWaiting_ne_turn hwr (hturn ▸ hr) (hturn.symm ▸ hnext)

end Sys2Proof.Machine
end


section
/-! PROOFS. Bytes that are held while a step waits (R163, R168): the arbiter reaches every waiting port within four
turns, so that no byte stays held; and the law of the ports over a step. -/

namespace Sys2Proof.Machine

variable {s t : State} {p q r : PortNo}

/-! ### The law of the ports, port by port -/

/-- The bits of a byte being assembled, and the byte within which a response was stopped (R160, R172). -/
abbrev Port.Clear (P : Port) : Prop := P.partialBits.length ≤ 7 ∧ (P.partialBits = [] → P.lastOut = none)

/-- No port holds a byte. -/
abbrev NoneHeld (s : State) : Prop := ∀ p : PortNo, (s.port p).held = []

/-- Every port's bits are clear. -/
abbrev AllClear (s : State) : Prop := ∀ p : PortNo, (s.port p).Clear

theorem portLaw_iff (s : State) : PortLaw s ↔ NoneHeld s ∧ AllClear s :=
  ⟨fun h => ⟨fun p => (h p).1, fun p => (h p).2⟩, fun h p => ⟨h.1 p, h.2 p⟩⟩

theorem Port.clear_of_wire {P Q : Port} (h : P.wire = Q.wire) (hQ : Q.Clear) : P.Clear := by
  simp only [Port.wire, Prod.mk.injEq] at h
  obtain ⟨-, -, hbits, hout, -⟩ := h
  rwa [Port.Clear, hbits, hout]

theorem Port.held_of_wire {P Q : Port} (h : P.wire = Q.wire) : P.held = Q.held := by
  simp only [Port.wire, Prod.mk.injEq] at h
  exact h.2.2.2.2

theorem Port.wire_of_core {P Q : Port} (h : P.core = Q.core) : P.wire = Q.wire := (congrArg Port.wire h :)

theorem portLaw_of_wires (h : ∀ p, (t.port p).wire = (s.port p).wire) (hs : PortLaw s) : PortLaw t :=
  fun p => ⟨(Port.held_of_wire (h p)).trans (hs p).1, Port.clear_of_wire (h p) (hs p).2⟩

theorem portLaw_of_fixed (h : t.fixed = s.fixed) (hs : PortLaw s) : PortLaw t :=
  portLaw_of_wires (fun p => Port.wire_of_core (port_core_of_fixed h p)) hs

theorem portLaw_modPort (f : Port → Port) (hheld : (f (s.port p)).held = (s.port p).held)
    (hclear : (s.port p).Clear → (f (s.port p)).Clear) (hs : PortLaw s) : PortLaw (s.modPort p f) := by
  intro r
  rw [State.modPort_port]
  split
  · next h => subst h; exact ⟨hheld.trans (hs r).1, hclear (hs r).2⟩
  · exact hs r

/-! ### What a turn leaves of the bits and the held bytes -/

theorem Port.clear_softReset {P : Port} (h : P.Clear) : P.softReset.Clear := by
  refine ⟨h.1, fun hbits => ?_⟩
  have hbits : P.partialBits = [] := hbits
  simp only [Port.softReset, hbits, ne_eq, not_true_eq_false, and_false, if_false]
  exact h.2 hbits

theorem allClear_serveStep (q : PortNo) (hs : AllClear s) : AllClear (serveStep q s) := by
  intro r
  cases hreset : (s.port q).asksSoftReset with
  | true =>
    rw [serveStep_softReset hreset, softReset_port]
    split
    · exact ⟨Nat.zero_le _, fun _ => rfl⟩
    · exact Port.clear_softReset (hs r)
  | false =>
    have hanswer := serveStep_answer hreset
    by_cases hr : r = q
    · subst hr
      exact Port.clear_of_wire hanswer.own (hs r)
    · exact Port.clear_of_wire (Port.wire_of_core (hanswer.others r hr)) (hs r)

theorem serveStep_held (q : PortNo) (s : State) (r : PortNo) : ((serveStep q s).port r).held = (s.port r).held := by
  cases hreset : (s.port q).asksSoftReset with
  | true =>
    rw [serveStep_softReset hreset, softReset_port]
    split <;> rfl
  | false =>
    have hanswer := serveStep_answer hreset
    by_cases hr : r = q
    · subst hr
      exact Port.held_of_wire hanswer.own
    · exact Port.held_of_wire (Port.wire_of_core (hanswer.others r hr))

theorem serveStep_served (q : PortNo) (s : State) : ((serveStep q s).port q).isWaiting = false := by
  cases hreset : (s.port q).asksSoftReset with
  | true => rw [serveStep_softReset hreset]; exact softReset_quiet _ _ _
  | false => exact (serveStep_answer hreset).served

/-- A service leaves another port waiting as it was, or leaves none waiting. -/
theorem serveStep_others (q : PortNo) (s : State) :
    (∀ r, r ≠ q → ((serveStep q s).port r).isWaiting = (s.port r).isWaiting) ∨ Quiet (serveStep q s) := by
  cases hreset : (s.port q).asksSoftReset with
  | true => rw [serveStep_softReset hreset]; exact .inr (softReset_quiet _ _)
  | false => exact .inl fun r hr => isWaiting_of_core ((serveStep_answer hreset).others r hr)

theorem allClear_drain (p : PortNo) (hs : List HeldByte) (h : AllClear s) : AllClear (drain p hs s) := by
  induction hs generalizing s with
  | nil => exact h
  | cons b bs ih =>
    have hmod : ∀ f : Port → Port, (f (s.port p)).Clear → AllClear (s.modPort p f) := fun f hf r => by
      rw [State.modPort_port]
      split
      · next hr => subst hr; exact hf
      · exact h r
    unfold drain
    split
    · exact hmod _ (h p)
    · exact ih (hmod _ (Port.clear_of_wire (Port.takeByte_wire b _) (h p)))

theorem allClear_drainHeld (p : PortNo) (h : AllClear s) : AllClear (drainHeld p s) := by
  refine allClear_drain p _ fun r => ?_
  rw [State.modPort_port]
  split <;> exact h r

theorem allClear_serveNext (h : AllClear s) : AllClear (serveNext s) := by
  unfold serveNext
  split
  · exact h
  · exact allClear_drainHeld _ (allClear_serveStep _ h)

theorem allClear_serveThrough (n : Nat) (p : PortNo) (h : AllClear s) : AllClear (serveThrough n p s) := by
  induction n generalizing s with
  | zero => exact h
  | succ n ih =>
    unfold serveThrough
    split
    · exact h
    · split
      · exact allClear_serveNext h
      · exact ih (allClear_serveNext h)

theorem allClear_serveWaiting (p : PortNo) (h : AllClear s) : AllClear (serveWaiting p s) := by
  unfold serveWaiting
  split
  · exact allClear_serveThrough 4 p h
  · exact h

/-- With no byte held at the port in turn, the turn is the service of its step. -/
theorem serveNext_of_none_held (hq : nextWaiting s = some q) (hh : (s.port q).held = []) : serveNext s = serveStep q s := by
  have hserve : serveNext s = drainHeld q (serveStep q s) := by rw [serveNext, hq]
  rw [hserve, drainHeld_nil (by rw [serveStep_held, hh])]

theorem noneHeld_serveNext (h : NoneHeld s) : NoneHeld (serveNext s) := by
  cases hq : nextWaiting s with
  | none => rw [serveNext, hq]; exact h
  | some q =>
    rw [serveNext_of_none_held hq (h q)]
    exact fun r => (serveStep_held q s r).trans (h r)

theorem noneHeld_serveThrough (n : Nat) (p : PortNo) (h : NoneHeld s) : NoneHeld (serveThrough n p s) := by
  induction n generalizing s with
  | zero => exact h
  | succ n ih =>
    unfold serveThrough
    split
    · exact h
    · split
      · exact noneHeld_serveNext h
      · exact ih (noneHeld_serveNext h)

theorem noneHeld_serveWaiting (p : PortNo) (h : NoneHeld s) : NoneHeld (serveWaiting p s) := by
  unfold serveWaiting
  split
  · exact noneHeld_serveThrough 4 p h
  · exact h

theorem portLaw_serveWaiting (p : PortNo) (h : PortLaw s) : PortLaw (serveWaiting p s) := by
  obtain ⟨hheld, hclear⟩ := (portLaw_iff s).1 h
  exact (portLaw_iff _).2 ⟨noneHeld_serveWaiting p hheld, allClear_serveWaiting p hclear⟩

/-! ### The arbiter reaches every waiting port -/

/-- The ports at which a step waits. -/
def waiters (s : State) : Finset PortNo := Finset.univ.filter fun p => (s.port p).isWaiting = true

theorem mem_waiters : p ∈ waiters s ↔ (s.port p).isWaiting = true := by simp [waiters]

theorem card_waiters_le_four (s : State) : (waiters s).card ≤ 4 := Finset.card_le_univ (waiters s)

/-- A turn for a port that holds no byte leaves fewer waiting ports. -/
theorem waiters_serveNext (hq : nextWaiting s = some q) (hh : (s.port q).held = []) :
    (waiters (serveNext s)).card < (waiters s).card := by
  rw [serveNext_of_none_held hq hh]
  have hqw := isWaiting_of_nextWaiting hq
  have hsub : waiters (serveStep q s) ⊆ waiters s := by
    intro r hr
    rw [mem_waiters] at hr ⊢
    by_cases hrq : r = q
    · exact hrq ▸ hqw
    · obtain hsame | hquiet := serveStep_others q s
      · exact (hsame r hrq).symm.trans hr
      · exact absurd ((hquiet r).symm.trans hr) nofun
  refine Finset.card_lt_card ((Finset.ssubset_iff_of_subset hsub).2 ⟨q, mem_waiters.2 hqw, fun h => ?_⟩)
  exact absurd ((serveStep_served q s).symm.trans (mem_waiters.1 h)) nofun

/-- After a turn for another port, a waiting port waits on, or none does. -/
theorem isWaiting_serveNext (hq : nextWaiting s = some q) (hh : (s.port q).held = []) (hp : p ≠ q) :
    ((serveNext s).port p).isWaiting = (s.port p).isWaiting ∨ Quiet (serveNext s) := by
  rw [serveNext_of_none_held hq hh]
  exact (serveStep_others q s).imp_left fun h => h p hp

theorem serveThrough_quiet (n : Nat) (p : PortNo) (h : Quiet s) : serveThrough n p s = s := by
  cases n with
  | zero => rfl
  | succ n =>
    have hnone : nextWaiting s = none := by simp [nextWaiting, h]
    rw [serveThrough, hnone]

theorem serveThrough_own (n : Nat) (hq : nextWaiting s = some p) : serveThrough (n + 1) p s = serveNext s := by
  rw [serveThrough, hq]
  exact if_pos rfl

theorem serveThrough_other (n : Nat) (hq : nextWaiting s = some q) (h : q ≠ p) :
    serveThrough (n + 1) p s = serveThrough n p (serveNext s) := by
  rw [serveThrough, hq]
  exact if_neg h

/-- More turns than there are waiting ports add nothing. -/
theorem serveThrough_enough {n : Nat} (hp : (s.port p).isWaiting = true) (hh : ∀ r, r ≠ p → (s.port r).held = [])
    (hn : (waiters s).card ≤ n) : serveThrough (n + 1) p s = serveThrough n p s := by
  induction n generalizing s with
  | zero => exact absurd (Finset.card_pos.2 ⟨p, mem_waiters.2 hp⟩) (by omega)
  | succ n ih =>
    obtain ⟨q, hq⟩ := exists_nextWaiting hp
    by_cases hqp : q = p
    · subst hqp
      rw [serveThrough_own _ hq, serveThrough_own _ hq]
    · rw [serveThrough_other _ hq hqp, serveThrough_other _ hq hqp]
      obtain hsame | hquiet := isWaiting_serveNext hq (hh q hqp) (Ne.symm hqp)
      · refine ih (hsame.trans hp) (fun r hr => ?_) ?_
        · rw [serveNext_of_none_held hq (hh q hqp), serveStep_held]
          exact hh r hr
        · have := waiters_serveNext hq (hh q hqp)
          omega
      · rw [serveThrough_quiet _ _ hquiet, serveThrough_quiet _ _ hquiet]

/-- The step of a port that holds a byte is served, and the byte taken; or the step has been discarded, and the byte
is still held (R163, R172). -/
theorem serveThrough_held {n : Nat} {b : HeldByte} (hp : (s.port p).isWaiting = true) (hb : (s.port p).held = [b])
    (hh : ∀ r, r ≠ p → (s.port r).held = []) (hn : (waiters s).card ≤ n) :
    (∀ r, r ≠ p → ((serveThrough n p s).port r).held = []) ∧
    (((serveThrough n p s).port p).held = [] ∨
      (((serveThrough n p s).port p).held = [b] ∧ ((serveThrough n p s).port p).isWaiting = false)) := by
  induction n generalizing s with
  | zero => exact absurd (Finset.card_pos.2 ⟨p, mem_waiters.2 hp⟩) (by omega)
  | succ n ih =>
    obtain ⟨q, hq⟩ := exists_nextWaiting hp
    by_cases hqp : q = p
    · subst hqp
      rw [serveThrough_own _ hq]
      have hserve : serveNext s = drainHeld q (serveStep q s) := by rw [serveNext, hq]
      rw [hserve, drainHeld_one (serveStep_served q s) ((serveStep_held q s q).trans hb)]
      refine ⟨fun r hr => ?_, .inl ?_⟩
      · rw [State.modPort_port, if_neg hr, serveStep_held]
        exact hh r hr
      · rw [State.modPort_port_self]
        exact Port.held_of_wire (Port.takeByte_wire b _)
    · rw [serveThrough_other _ hq hqp]
      have hheld : ∀ r, ((serveNext s).port r).held = (s.port r).held := fun r => by
        rw [serveNext_of_none_held hq (hh q hqp), serveStep_held]
      obtain hsame | hquiet := isWaiting_serveNext hq (hh q hqp) (Ne.symm hqp)
      · refine ih (hsame.trans hp) ((hheld p).trans hb) (fun r hr => (hheld r).trans (hh r hr)) ?_
        have := waiters_serveNext hq (hh q hqp)
        omega
      · rw [serveThrough_quiet _ _ hquiet]
        exact ⟨fun r hr => (hheld r).trans (hh r hr), .inr ⟨(hheld p).trans hb, hquiet p⟩⟩

/-! ### The law of the ports over a step -/

/-- A byte that arrives is taken, at once or behind the waiting step (R163). -/
theorem portLaw_arrive (p : PortNo) (b : HeldByte) (hs : PortLaw s) : PortLaw (arrive p b s) := by
  unfold arrive
  split
  · next hw =>
    obtain ⟨hheld, hclear⟩ := (portLaw_iff s).1 hs
    have hport : ∀ r, ((s.modPort p fun P => { P with held := P.held ++ [b] }).port r) =
        if r = p then { s.port r with held := (s.port r).held ++ [b] } else s.port r := fun r => by
      rw [State.modPort_port]
    have hwait : ((s.modPort p fun P => { P with held := P.held ++ [b] }).port p).isWaiting = true := by
      rw [hport, if_pos rfl]; exact hw
    have hclear' : AllClear (s.modPort p fun P => { P with held := P.held ++ [b] }) := fun r => by
      rw [hport]
      split <;> exact hclear r
    rw [serveWaiting, if_pos hwait]
    obtain ⟨hothers, hown⟩ := serveThrough_held (n := 4) (b := b) hwait (by rw [hport, if_pos rfl, hheld p]; rfl)
      (fun r hr => by rw [hport, if_neg hr]; exact hheld r) (card_waiters_le_four _)
    have hclears := allClear_serveThrough 4 p hclear'
    refine (portLaw_iff _).2 ⟨fun r => ?_, allClear_drainHeld p hclears⟩
    by_cases hr : r = p
    · subst hr
      obtain hnone | ⟨hone, hidle⟩ := hown
      · rw [drainHeld_nil hnone]; exact hnone
      · rw [drainHeld_one hidle hone, State.modPort_port_self]
        exact Port.held_of_wire (Port.takeByte_wire b _)
    · rw [drainHeld_port_ne hr]
      exact hothers r hr
  · exact portLaw_of_wires (fun r => by
      rw [State.modPort_port]
      split
      · next h => subst h; exact Port.takeByte_wire b _
      · rfl) hs

theorem portLaw_byteDone (p : PortNo) (hs : PortLaw s) : PortLaw (s.modPort p Port.byteDone) :=
  portLaw_modPort _ rfl (fun _ => ⟨Nat.zero_le _, fun _ => rfl⟩) hs

theorem portLaw_byteInTransfer (p : PortNo) (c : Bool) (b : Byte) (hs : PortLaw s) : PortLaw (byteInTransfer p c b s) := by
  unfold byteInTransfer
  split
  · exact portLaw_arrive p _ (portLaw_byteDone p hs)
  · exact hs

theorem portLaw_clockBit (p : PortNo) (sdi cdn : Bool) (hs : PortLaw s) : PortLaw (clockBit p sdi cdn s) := by
  unfold clockBit
  split
  · have ht := portLaw_serveWaiting p hs
    unfold takeBit
    dsimp only
    split
    · next hlen =>
      exact portLaw_modPort (fun P => { P with partialBits := ((serveWaiting p s).port p).partialBits ++ [sdi] }) rfl
        (fun _ => ⟨by dsimp only; omega, fun h => absurd h (by simp)⟩) ht
    · exact portLaw_arrive p _ (portLaw_byteDone p ht)
  · exact hs

theorem portLaw_break (p : PortNo) (hs : PortLaw s) : PortLaw (s.modPort p Port.break) :=
  portLaw_modPort _ rfl (fun _ => ⟨Nat.zero_le _, fun _ => rfl⟩) hs

theorem Port.clear_endTransfer {P : Port} (h : P.Clear) : P.endTransfer.Clear ∧ P.endTransfer.held = P.held := by
  unfold Port.endTransfer
  split
  · split
    · exact ⟨h, rfl⟩
    · exact ⟨⟨Nat.zero_le _, fun _ => rfl⟩, rfl⟩
  · exact ⟨h, rfl⟩

theorem portLaw_endTransfer (p : PortNo) (hs : PortLaw s) : PortLaw (endTransfer p s) := by
  unfold endTransfer
  dsimp only
  have ht : PortLaw (if ((s.port p).transferOpen && (s.port p).partialBits.isEmpty && (s.port p).fieldStepWaits) = true
      then serveWaiting p s else s) := by
    split
    · exact portLaw_serveWaiting p hs
    · exact hs
  exact portLaw_modPort _ (Port.clear_endTransfer (ht p).2).2 (fun h => (Port.clear_endTransfer h).1) ht

theorem portLaw_arriveData (p : PortNo) (bs : List Byte) (hs : PortLaw s) : PortLaw (arriveData p bs s) := by
  unfold arriveData
  induction bs generalizing s with
  | nil => exact hs
  | cons b bs ih => exact ih (portLaw_arrive p _ hs)

theorem portLaw_giveCommand (p : PortNo) (c : Command) (bs : List Byte) (hs : PortLaw s) :
    PortLaw (giveCommand p c bs s) := by
  unfold giveCommand
  split
  · exact portLaw_serveWaiting p hs
  · exact portLaw_serveWaiting p (portLaw_arriveData p bs (portLaw_arrive p _ hs))

theorem portLaw_giveField (p : PortNo) (isHere : FieldContext → Bool) (bs : List Byte) (hs : PortLaw s) :
    PortLaw (giveField p isHere bs s) := by
  unfold giveField
  dsimp only
  have ht : PortLaw (if (s.port p).standsAt isHere bs = true then s else serveWaiting p s) := by
    split
    · exact hs
    · exact portLaw_serveWaiting p hs
  generalize (if (s.port p).standsAt isHere bs = true then s else serveWaiting p s) = t at ht ⊢
  split
  · exact portLaw_serveWaiting p (portLaw_modPort _ rfl (fun h => h) ht)
  · exact hs

theorem portLaw_fullReset (straps : Byte) (lines : BitVec 22) (s : State) : PortLaw (fullReset straps lines s) := by
  intro p
  have hport : ∃ role, (fullReset straps lines s).port p = Port.reset role := by
    revert p
    exact fun | 0 => ⟨_, rfl⟩ | 1 => ⟨_, rfl⟩ | 2 => ⟨_, rfl⟩ | 3 => ⟨_, rfl⟩
  obtain ⟨role, hrole⟩ := hport
  rw [hrole]
  exact ⟨rfl, Nat.zero_le _, fun _ => rfl⟩

/-- An edge reaches its lane with the ports as they are. -/
theorem atMappedLane_fixed (k : PosNo) (f : LaneNo → State → State) (hf : ∀ l s, (f l s).fixed = s.fixed) (s : State) :
    (atMappedLane k f s).fixed = s.fixed := by
  unfold atMappedLane
  split
  · rfl
  · exact hf _ s

theorem portLaw_wheelCount (d : Direction) (k : PosNo) (hs : PortLaw s) : PortLaw (wheelCount d k s) := by
  have hmoved : PortLaw (s.modWheel k (pairStep d)) := hs
  exact portLaw_of_fixed ((atMappedLane_fixed k _ (fun l s => laneCount_fixed s _ _ l) _).trans (by simp)) hmoved

theorem portLaw_exec {i : Instr} (he : exec i s = .next t) (hs : PortLaw s) : PortLaw t := by
  cases i <;> (injection he with he; subst he)
  case powerOnReset | hardReset => exact portLaw_fullReset _ _ _
  case transferOpen p => exact portLaw_modPort _ rfl (fun _ => ⟨Nat.zero_le _, fun _ => rfl⟩) hs
  case commandByte | dataByte => exact portLaw_byteInTransfer _ _ _ hs
  case transferEnd p => exact portLaw_endTransfer p hs
  case transferBreak p | transferPause p =>
    refine portLaw_modPort _ ?_ (fun h => ?_) hs
    · simp only [Port.breakTransfer, Port.pauseTransfer, Port.break]; split <;> rfl
    · simp only [Port.breakTransfer, Port.pauseTransfer, Port.break]
      split
      · exact ⟨Nat.zero_le _, fun _ => rfl⟩
      · exact h
  case sckRisingEdge p sdi cdn => exact portLaw_clockBit p sdi cdn hs
  case setPositionField | writeRecipeField | writePatternEntry => exact portLaw_giveField _ _ _ hs
  case wheelCountForward k | wheelCountReverse k => exact portLaw_wheelCount _ k hs
  case flyerPulse k => exact portLaw_of_fixed (atMappedLane_fixed k _ (fun l s => flyerPulse_fixed s l) s) hs
  case capstanRisingEdge k =>
    exact portLaw_of_fixed ((calRising_fixed _ k).trans (atMappedLane_fixed k _ (fun l s => capstanPulse_fixed s l) s)) hs
  case drawCount d =>
    exact portLaw_of_fixed (drawWatchers_fixed _) (s := { s.modDraw (pairStep d) with line := _ }) hs
  case bothLinesChange d => cases d <;> exact hs
  case threadingEnd | windowEnd | spliceOverlong | tallyLimitReached | coilCutDue | cutLate | rowFallsDue | rowTimeout |
      tailReached | passAClose | passBClose | capstanFallingEdge =>
    exact portLaw_of_fixed (by simp) hs
  all_goals exact portLaw_giveCommand _ _ _ hs

/-- Settles O59: every byte that is held while a step waits is taken before the command ends, since the arbiter
reaches the port within four turns (R163, R168). -/
theorem stepKeepsThePortsClear : Obligations.StepKeepsThePortsClear := by
  intro s t hs hstep
  unfold step at hstep
  split at hstep
  · injection hstep with hstep
    subst hstep
    obtain ⟨hheld, hclear⟩ := (portLaw_iff s).1 hs
    exact (portLaw_iff _).2 ⟨noneHeld_serveNext hheld, allClear_serveNext hclear⟩
  · exact portLaw_exec hstep hs

end Sys2Proof.Machine
end


section
/-! PROOFS. The bytes at a port (09_station_ports.md R160 to R166): command bytes, data bytes, clock edges, and the whole
command that they spell; the resets; and the step itself. -/

namespace Sys2Proof.Machine

variable {s t : State} {p q r : PortNo}

/-! ### The step and the resets -/

/-- Settles O1: the step is defined by the front of the queue. -/
theorem stepTakesTheFrontCommand : Obligations.StepTakesTheFrontCommand := fun _ _ => rfl

/-- On an empty queue a step is one turn of the arbiter. -/
theorem step_of_empty (h : s.pending = []) : step s = .next (serveNext s) := by
  rw [step, h]

/-- Settles O3: both resets give the same state, whose records are read off (R22). -/
theorem resetSetsLanesPositionsAndMode : Obligations.ResetSetsLanesPositionsAndMode := by
  intro straps lines s
  refine ⟨fullReset straps lines s, rfl, rfl, fun l => ?_, rfl, fun k => ?_⟩
  · rw [fullReset_lane]
    rfl
  · rw [fullReset_position]
    rfl

theorem fullReset_port (straps : Byte) (lines : BitVec 22) (s : State) (p : PortNo) :
    (fullReset straps lines s).port p = Port.reset (roleOfStraps straps p) := by
  revert p
  exact fun | 0 => rfl | 1 => rfl | 2 => rfl | 3 => rfl

theorem fullReset_wheels (straps : Byte) (lines : BitVec 22) (s : State) (k : PosNo) :
    (fullReset straps lines s).inputs.wheels[k] = (lines.getLsbD (2 * k.val), lines.getLsbD (2 * k.val + 1)) := by
  revert k
  exact fun | 0 => rfl | 1 => rfl | 2 => rfl | 3 => rfl | 4 => rfl | 5 => rfl | 6 => rfl | 7 => rfl | 8 => rfl | 9 => rfl

theorem defaultPattern_row (r : Fin 32) :
    defaultPattern[r] = if r = 0 then 0b1010101#7 else if r = 1 then 0b0101010#7 else 0b0000000#7 := by
  revert r
  decide

theorem fullReset_markList (straps : Byte) (lines : BitVec 22) (s : State) (l : LaneNo) :
    (fullReset straps lines s).markList l = [] := by
  simp [fullReset, State.markList, State.reset, MarkStore.empty]

/-- Settles O4: the stores and the ports of the reset state are read off (R22, R162, R173, R182). -/
theorem resetSetsStoresAndPorts : Obligations.ResetSetsStoresAndPorts := by
  refine ⟨fun straps lines s => ?stores, fun straps lines s => ?ports⟩
  case stores =>
    refine ⟨fullReset straps lines s, rfl, rfl, fun k => ?cals, fun i => ?recipes, fullReset_markList straps lines s,
      ?free, rfl, rfl, rfl, rfl, rfl, rfl, rfl, fullReset_wheels straps lines s, rfl, rfl, rfl⟩
    case cals =>
      have hcal : (fullReset straps lines s).cal k = CalRecord.reset := by simp [fullReset, State.cal, State.reset]
      rw [hcal]
      rfl
    case recipes =>
      rw [fullReset_recipe]
      exact ⟨rfl, defaultPattern_row⟩
    case free => simp [State.freeEntries, State.marksHeld, fullReset_markList, allLanes, markPoolSize]
  case ports =>
    refine ⟨fullReset straps lines s, rfl, rfl, rfl, fun p => ?_⟩
    rw [fullReset_port]
    have hrole : roleOfStraps straps p =
        match straps.getLsbD (2 * p.val), straps.getLsbD (2 * p.val + 1) with
        | false, false => .twist
        | true, false => .knot
        | false, true => .pack
        | true, true => .supervise := by
      unfold roleOfStraps
      cases straps.getLsbD (2 * p.val) <;> cases straps.getLsbD (2 * p.val + 1) <;> rfl
    rw [hrole]
    cases straps.getLsbD (2 * p.val) <;> cases straps.getLsbD (2 * p.val + 1) <;> rfl

/-! ### SOFT_RESET -/

theorem softResetJobs_cal (s : State) (k : PosNo) : (softResetJobs s).cal k = CalRecord.reset := by
  simp [softResetJobs, State.cal]

theorem softResetJobs_markList (s : State) (l : LaneNo) : (softResetJobs s).markList l = [] := by
  simp [softResetJobs, State.markList, MarkStore.empty]

/-- Settles O5: SOFT_RESET as a whole row and as the service of a waiting step (R23, R172). -/
theorem softResetReturnsTheJobs : Obligations.SoftResetReturnsTheJobs := by
  refine ⟨fun s p hready => ?row, fun s p hpending hnext hcode hctx hheld => ?service⟩
  case row =>
    rw [exec_softReset_ready hready]
    have hport := fun q => State.modPort_port (s := (softResetJobs s).mapPorts Port.softReset) p q (f := fun P =>
      { P with partialBits := [], lastOut := none, lastCommand := some Command.softReset.code, lastResult := .ok,
               clamped := false })
    refine ⟨_, rfl, ?_, softResetJobs_lane s, rfl, rfl, softResetJobs_markList s, softResetJobs_cal s,
      fun q => ?_, rfl, rfl⟩
    · exact congrArg Port.lastResult ((hport p).trans (if_pos rfl))
    · refine (congrArg Port.notices (hport q)).trans ?_
      split <;> (rw [State.mapPorts_port]; rfl)
  case service =>
    have hasks : (s.port p).asksSoftReset = true := by
      have hcommand : (s.port p).command = some .softReset := by
        rw [Port.command, hcode]
        exact Command.ofCode_code .softReset
      simp [Port.asksSoftReset, hctx, hcommand]
    have hserve : serveNext s = softReset p { s with turn := p } := by
      rw [serveNext_of_none_held hnext hheld, serveStep_softReset hasks]
    refine ⟨softReset p { s with turn := p }, by rw [step_of_empty hpending, hserve], rfl, ?_, fun q hq => ?_,
      fun l => ?_, softResetJobs_cal { s with turn := p }, rfl, rfl, rfl, rfl, rfl, rfl, rfl, rfl, rfl, rfl, rfl, hpending⟩
    · rw [softReset_port, if_pos rfl]
      rfl
    · rw [softReset_port, if_neg hq]
      rfl
    · exact softResetJobs_lane s l

/-! ### Command and data bytes -/

/-- A byte row at an open transfer where no step waits is the byte taken (R160, R163). -/
theorem byteInTransfer_idle (c : Bool) (b : Byte) (ho : (s.port p).transferOpen = true)
    (hw : (s.port p).isWaiting = false) :
    byteInTransfer p c b s = s.modPort p fun P => P.byteDone.takeByte ⟨c, b⟩ := by
  have hidle : ((s.modPort p Port.byteDone).port p).isWaiting = false := by
    rw [State.modPort_port_self]; exact hw
  rw [byteInTransfer, if_pos ho, arrive_idle hidle, State.modPort_modPort]

theorem Port.openNamed_of_ne {c : Command} (hc : c ≠ .readStatus) (P : Port) : P.openNamed c =
    if c.permits P.role = true then P.opened c.code .incomplete (firstPhase c) else P.opened c.code .role .discarding := by
  cases c
  case readStatus => exact absurd rfl hc
  all_goals rfl

/-- Settles O6: the cases of a command byte are those of its code and role (R161). -/
theorem commandByteOpensItsCommand : Obligations.CommandByteOpensItsCommand := by
  intro s p b hopen hidle
  refine ⟨?command, fun hphase => ?data, fun hphase => if_neg hphase⟩
  case command =>
    show Host.Outcome.next (byteInTransfer p true b s) = _
    rw [byteInTransfer_idle true b hopen hidle]
    refine congrArg _ (State.modPort_congr _ _ _ _ ?_)
    show (s.port p).byteDone.takeCommand b = _
    unfold Port.takeCommand
    cases hcode : Command.ofCode b with
    | none =>
      have hb : b ≠ 0x01 := fun h => by
        rw [h, show Command.ofCode 0x01 = some .readStatus from Command.ofCode_code .readStatus] at hcode
        cases hcode
      simp only [if_neg hb]
      rfl
    | some c =>
      obtain rfl := (ofCode_eq_some_iff b c).1 hcode
      by_cases hc : c = .readStatus
      · subst hc
        rfl
      · have hb : c.code ≠ 0x01 := fun h => by
          rw [h, show Command.ofCode 0x01 = some .readStatus from Command.ofCode_code .readStatus] at hcode
          exact hc (Option.some_inj.1 hcode).symm
        simp only [Port.openNamed_of_ne hc, if_neg hb]
        cases hrole : c.permits (s.port p).role with
        | false => simp only [Port.byteDone, hrole]; rfl
        | true => simp only [Port.byteDone, hrole]; rfl
  case data =>
    show Host.Outcome.next (byteInTransfer p false b s) = _
    rw [byteInTransfer_idle false b hopen hidle]
    refine congrArg _ (State.modPort_congr _ _ _ _ ?_)
    show (s.port p).byteDone.takeData b = (s.port p).byteDone
    obtain h | h := hphase <;> simp [Port.takeData, Port.byteDone, h]

/-- The width of a step, by what the port stands at (R163, R174, R176, R177). -/
theorem stepWidth_of_cases {P : Port} {width : Nat}
    (h : (∃ c : Command, P.context = none ∧ P.openCommand = some c.code ∧ width = c.firstBytes) ∨
      (∃ k field, P.context = some (.position k field) ∧ width = field.bytes) ∨
      (∃ slot index, P.context = some (.recipe slot index) ∧ width = recipeFieldBytes index) ∨
      (∃ slot row, P.context = some (.pattern slot row) ∧ width = 2)) : P.stepWidth = width := by
  obtain ⟨c, hctx, hcode, rfl⟩ | ⟨k, field, hctx, rfl⟩ | ⟨slot, index, hctx, rfl⟩ | ⟨slot, row, hctx, rfl⟩ := h
  · simp [Port.stepWidth, hctx, Port.command, hcode]
  · simp [Port.stepWidth, hctx]
  · simp [Port.stepWidth, hctx]
  · simp [Port.stepWidth, hctx]

/-- Data bytes in STREAMING advance the response pointer, up to the end of the response (R166). -/
theorem execAll_dataBytes_streaming (bs : List Byte) (ho : (s.port p).transferOpen = true)
    (hphase : (s.port p).phase = .streaming) (hbits : (s.port p).partialBits = []) (hout : (s.port p).lastOut = none)
    (hptr : (s.port p).respPtr ≤ (s.port p).response.length) :
    execAll (bs.map (Instr.dataByte p)) s = .next (s.modPort p fun P =>
      { P with respPtr := min P.response.length (P.respPtr + bs.length) }) := by
  induction bs generalizing s with
  | nil =>
    refine congrArg Host.Outcome.next (State.modPort_id _ _ _ ?_).symm
    simp [Nat.min_eq_right hptr]
  | cons b bs ih =>
    have hidle : (s.port p).isWaiting = false := by simp [Port.isWaiting, hphase]
    have hfirst : exec (.dataByte p b) s = .next (s.modPort p fun P =>
        { P with respPtr := min P.response.length (P.respPtr + 1) }) := by
      show Host.Outcome.next (byteInTransfer p false b s) = _
      rw [byteInTransfer_idle false b ho hidle]
      refine congrArg _ (State.modPort_congr _ _ _ _ ?_)
      simp [Port.takeByte, Port.takeData, Port.byteDone, hphase, ← hbits, ← hout]
    simp only [List.map_cons, execAll, hfirst]
    rw [ih (by simpa using ho) (by simpa using hphase) (by simpa using hbits) (by simpa using hout) (by simp),
      State.modPort_modPort]
    refine congrArg _ (State.modPort_congr _ _ _ _ ?_)
    simp only [List.length_cons]
    congr 1
    omega

/-- Settles O7: a data byte joins the step, or draws the next byte of the response (R163, R166). -/
theorem dataBytesBuildStepsAndDrawResponses : Obligations.DataBytesBuildStepsAndDrawResponses := by
  refine ⟨fun s p b width hopen hphase hwidth => ?build, fun s p bs hopen hphase hptr hbits hout => ?draw⟩
  case build =>
    show Host.Outcome.next (byteInTransfer p false b s) = _
    rw [byteInTransfer_idle false b hopen (by simp [Port.isWaiting, hphase])]
    refine congrArg _ (State.modPort_congr _ _ _ _ ?_)
    have hw : (s.port p).byteDone.stepWidth = width := stepWidth_of_cases hwidth
    have htake : (s.port p).byteDone.takeByte ⟨false, b⟩ = (s.port p).byteDone.addByte b := by
      simp [Port.takeByte, Port.takeData, Port.byteDone, hphase]
    rw [htake, Port.addByte, hw]
    rfl
  case draw =>
    refine ⟨_, execAll_dataBytes_streaming bs hopen hphase hbits hout (by rw [hptr]; exact Nat.zero_le _), ?_, ?_⟩
    · rw [State.modPort_port_self]
      simp only [Port.outgoing, hphase, hptr, if_true, Nat.zero_add, List.getD_eq_getElem?_getD]
      by_cases hn : bs.length ≤ (s.port p).response.length
      · rw [Nat.min_eq_right hn]
      · rw [Nat.min_eq_left (by omega), List.getElem?_eq_none le_rfl, List.getElem?_eq_none (by omega)]
    · exact State.modPort_congr _ _ _ _ (by simp [hptr])

/-! ### Clock edges -/

/-- The bits of a number given most significant first, counted from the last. -/
theorem testBit_foldl_bits (bits : List Bool) (i : Nat) :
    (bits.foldl (fun (a : Nat) (b : Bool) => 2 * a + b.toNat) 0).testBit i = bits.reverse[i]?.getD false := by
  induction bits using List.reverseRecOn generalizing i with
  | nil => simp
  | append_singleton bits b ih =>
    simp only [List.foldl_append, List.foldl_cons, List.foldl_nil, List.reverse_append, List.reverse_cons,
      List.reverse_nil, List.nil_append, List.cons_append]
    cases i with
    | zero => cases b <;> simp [Nat.testBit_zero]
    | succ i =>
      have hhalf : ∀ a : Nat, (2 * a + b.toNat) / 2 = a := fun a => by
        cases b <;> simp
        omega
      rw [Nat.testBit_succ, hhalf, ih, List.getElem?_cons_succ]

/-- The byte whose bits are given is the byte (R160). -/
theorem byteOfBits_getLsbD (b : Byte) : byteOfBits [b.getLsbD 7, b.getLsbD 6, b.getLsbD 5, b.getLsbD 4, b.getLsbD 3,
    b.getLsbD 2, b.getLsbD 1, b.getLsbD 0] = b := by
  refine BitVec.eq_of_getLsbD_eq fun i hi => ?_
  rw [byteOfBits, BitVec.getLsbD_ofNat, testBit_foldl_bits]
  interval_cases i <;> rfl

/-- An edge in an open transfer at a port where no step waits is a bit taken. -/
theorem exec_sckRisingEdge_idle (sdi cdn : Bool) (ho : (s.port p).transferOpen = true)
    (hw : (s.port p).isWaiting = false) : exec (.sckRisingEdge p sdi cdn) s = .next (takeBit p sdi cdn s) := by
  show Host.Outcome.next (clockBit p sdi cdn s) = _
  rw [clockBit, if_pos ho, serveWaiting, if_neg (by simp [hw])]

theorem takeBit_joins (sdi cdn : Bool) (h : (s.port p).partialBits.length < 7) :
    takeBit p sdi cdn s = s.modPort p fun P => { P with partialBits := P.partialBits ++ [sdi] } := by
  have hlen : ((s.port p).partialBits ++ [sdi]).length < 8 := by
    rw [List.length_append, List.length_singleton]
    omega
  rw [takeBit, if_pos hlen]
  exact State.modPort_congr _ _ _ _ rfl

/-- Edges in an open transfer fill the byte being assembled. -/
theorem execAll_edges_join (bits : List (Bool × Bool)) (rest : List Instr) (ho : (s.port p).transferOpen = true)
    (hw : (s.port p).isWaiting = false) (h : (s.port p).partialBits.length + bits.length ≤ 7) :
    execAll (bits.map (fun b => .sckRisingEdge p b.1 b.2) ++ rest) s
      = execAll rest (s.modPort p fun P => { P with partialBits := P.partialBits ++ bits.map Prod.fst }) := by
  induction bits generalizing s with
  | nil =>
    simp only [List.map_nil, List.nil_append, List.append_nil]
    rw [State.modPort_id _ _ _ rfl]
  | cons b bits ih =>
    simp only [List.length_cons] at h
    simp only [List.map_cons, List.cons_append, execAll, exec_sckRisingEdge_idle _ _ ho hw,
      takeBit_joins b.1 b.2 (by omega : (s.port p).partialBits.length < 7)]
    rw [ih (by simpa using ho) (by simpa [Port.isWaiting] using hw) (by simp; omega), State.modPort_modPort]
    simp only [List.append_assoc, List.singleton_append]

theorem takeBit_eighth (sdi cdn : Bool) (h : (s.port p).partialBits.length = 7) :
    takeBit p sdi cdn s = arrive p ⟨!cdn, byteOfBits ((s.port p).partialBits ++ [sdi])⟩ (s.modPort p Port.byteDone) := by
  have hlen : ¬ ((s.port p).partialBits ++ [sdi]).length < 8 := by simp [h]
  rw [takeBit, if_neg hlen]

/-- Settles O9: seven edges fill the byte, and the eighth completes it (R160). -/
theorem eightClockEdgesMakeOneByte : Obligations.EightClockEdgesMakeOneByte := by
  intro s p b sdi cdn c0 c1 c2 c3 c4 c5 c6
  refine ⟨fun hclosed => ?closed, fun hopen hidle => ⟨fun hbits => ?join, fun hnone => ?eight⟩⟩
  case closed =>
    show Host.Outcome.next (clockBit p sdi cdn s) = _
    rw [clockBit, if_neg (by simp [hclosed])]
  case join => rw [exec_sckRisingEdge_idle sdi cdn hopen hidle, takeBit_joins sdi cdn hbits]
  case eight =>
    have hseven := execAll_edges_join (s := s) (p := p)
      [(b.getLsbD 7, c0), (b.getLsbD 6, c1), (b.getLsbD 5, c2), (b.getLsbD 4, c3), (b.getLsbD 3, c4),
        (b.getLsbD 2, c5), (b.getLsbD 1, c6)] [.sckRisingEdge p (b.getLsbD 0) cdn] hopen hidle (by simp [hnone])
    simp only [List.map_cons, List.map_nil, List.cons_append, List.nil_append] at hseven
    rw [hseven]
    simp only [execAll]
    rw [exec_sckRisingEdge_idle _ _ (by simpa using hopen) (by simpa [Port.isWaiting] using hidle),
      takeBit_eighth _ _ (by simp [hnone]), State.modPort_port_self, State.modPort_modPort]
    have hbyte := byteOfBits_getLsbD b
    simp only [hnone, List.nil_append, List.cons_append, hbyte]
    have hrow : ∀ c : Bool, byteInTransfer p c b s = arrive p ⟨c, b⟩ (s.modPort p Port.byteDone) := fun c => by
      rw [byteInTransfer, if_pos hopen]
    cases cdn
    · exact congrArg _ (hrow true).symm
    · exact congrArg _ (hrow false).symm

/-! ### Whole commands -/

/-- A whole-command row gives its command at its port, with the bytes that its first step takes. -/
theorem exec_of_spells {i : Instr} {c : Command} {bs : List Byte} (h : i.spells = some (p, c, bs)) (s : State) :
    exec i s = .next (giveCommand p c bs s) ∧ bs.length = c.firstBytes := by
  cases i <;> simp only [Instr.spells, Option.some.injEq, Prod.mk.injEq, reduceCtorEq] at h <;>
    (obtain ⟨rfl, rfl, rfl⟩ := h; exact ⟨rfl, by simp [Command.firstBytes]⟩)

/-- A data byte, given as a row where the port's bits are clear, is a byte that arrives. -/
theorem exec_dataByte_clear (b : Byte) (ho : (s.port p).transferOpen = true) (hbits : (s.port p).partialBits = [])
    (hout : (s.port p).lastOut = none) : exec (.dataByte p b) s = .next (arrive p ⟨false, b⟩ s) := by
  show Host.Outcome.next (byteInTransfer p false b s) = _
  rw [byteInTransfer, if_pos ho, State.modPort_id _ _ _ (by rw [Port.byteDone, ← hbits, ← hout])]

theorem exec_commandByte_clear (b : Byte) (ho : (s.port p).transferOpen = true) (hbits : (s.port p).partialBits = [])
    (hout : (s.port p).lastOut = none) : exec (.commandByte p b) s = .next (arrive p ⟨true, b⟩ s) := by
  show Host.Outcome.next (byteInTransfer p true b s) = _
  rw [byteInTransfer, if_pos ho, State.modPort_id _ _ _ (by rw [Port.byteDone, ← hbits, ← hout])]

/-- The data bytes of a step that is being assembled arrive as rows. -/
theorem execAll_dataBytes_parameters (bs : List Byte) (ho : (s.port p).transferOpen = true)
    (hbits : (s.port p).partialBits = []) (hout : (s.port p).lastOut = none) (hphase : (s.port p).phase = .parameters)
    (hw : (s.port p).stepBytes.length + bs.length ≤ (s.port p).stepWidth) :
    execAll (bs.map (Instr.dataByte p)) s = .next (arriveData p bs s) := by
  induction bs generalizing s with
  | nil => rfl
  | cons b bs ih =>
    have hfirst : arrive p ⟨false, b⟩ s = s.modPort p fun P => P.addByte b := by
      rw [arrive_idle (by simp [Port.isWaiting, hphase])]
      exact State.modPort_congr _ _ _ _ (by simp [Port.takeByte, Port.takeData, hphase])
    show _ = Host.Outcome.next (arriveData p bs (arrive p ⟨false, b⟩ s))
    simp only [List.map_cons, execAll, exec_dataByte_clear b ho hbits hout]
    cases bs with
    | nil => rfl
    | cons c cs =>
      simp only [List.length_cons] at hw
      rw [hfirst]
      refine ih ?_ ?_ ?_ ?_ ?_
      all_goals simp only [State.modPort_port_self, Port.addByte]
      · exact ho
      · exact hbits
      · exact hout
      · exact if_neg (by omega)
      · show ((s.port p).stepBytes ++ [b]).length + (c :: cs).length ≤ (s.port p).stepWidth
        simp only [List.length_append, List.length_cons, List.length_nil]
        omega

/-- The bytes of a whole command, given as rows, arrive at the port. -/
theorem execAll_command {c : Command} (bs : List Byte) (hb : bs.length = c.firstBytes)
    (ho : (s.port p).transferOpen = true) (hbits : (s.port p).partialBits = []) (hout : (s.port p).lastOut = none)
    (hw : (s.port p).isWaiting = false) (hr : c.permits (s.port p).role = true) :
    execAll (.commandByte p c.code :: bs.map (Instr.dataByte p)) s
      = .next (arriveData p bs (arrive p ⟨true, c.code⟩ s)) := by
  simp only [execAll, exec_commandByte_clear c.code ho hbits hout]
  cases bs with
  | nil => rfl
  | cons b bs =>
    have hc : c ≠ .readStatus := fun h => by subst h; cases hb
    have hfirst : firstPhase c = .parameters := by simp [firstPhase, ← hb]
    have hopened : arrive p ⟨true, c.code⟩ s = s.modPort p (Port.opened c.code .incomplete (firstPhase c)) := by
      rw [arrive_idle hw]
      exact State.modPort_congr _ _ _ _ (by simp [Port.takeByte, takeCommand_permitted c hc _ hr])
    rw [hopened]
    refine execAll_dataBytes_parameters (b :: bs) ?_ ?_ ?_ ?_ ?_
    all_goals simp only [State.modPort_port_self]
    · exact ho
    · exact hbits
    · exact hout
    · exact hfirst
    · simp [Port.opened, Port.close, Port.stepWidth, Port.command, ← hb]

/-- Only the port of a whole command waits once its bytes are in. -/
theorem command_waits {c : Command} (bs : List Byte) (hb : bs.length = c.firstBytes) (hs : Quiet s)
    (hr : c.permits (s.port p).role = true) :
    ∃ F : Port → Port, (∀ P, (F P).isWaiting = true) ∧ arriveData p bs (arrive p ⟨true, c.code⟩ s) = s.modPort p F := by
  by_cases hc : c = .readStatus
  · subst hc
    obtain rfl : bs = [] := List.eq_nil_of_length_eq_zero hb
    refine ⟨Port.openedStatus, fun _ => rfl, ?_⟩
    show arrive p ⟨true, Command.readStatus.code⟩ s = _
    rw [arrive_idle (hs p)]
    exact State.modPort_congr _ _ _ _ (by simp [Port.takeByte, Port.takeCommand, Port.openNamed])
  · exact ⟨Port.asked c bs, fun _ => rfl, command_arrives c hc bs hs hr hb⟩

/-- Settles O10: a whole-command row is its bytes, and the turn of the arbiter that serves the one waiting step
(R161, R163, R168); outside the port's role its bytes are discarded. -/
theorem wholeCommandIsItsBytesAndATurn : Obligations.WholeCommandIsItsBytesAndATurn := by
  refine ⟨fun s i p c bs hspells hquiet hpending _ hopen hbits hout hrole => ?served,
    fun s i p c bs hspells hquiet hrole => ?refused⟩
  case served =>
    obtain ⟨hexec, hlength⟩ := exec_of_spells hspells s
    obtain ⟨F, hF, harrived⟩ := command_waits bs hlength hquiet hrole
    refine ⟨_, execAll_command bs hlength hopen hbits hout (hquiet p) hrole, ?_⟩
    have hawaits : (s.port p).awaits c bs = false := by simp [Port.awaits, hquiet p]
    have hown : ((s.modPort p F).port p).isWaiting = true := by rw [State.modPort_port_self]; exact hF _
    have hothers : ∀ q, q ≠ p → ((s.modPort p F).port q).isWaiting = false := fun q hq => by
      rw [State.modPort_port, if_neg hq]; exact hquiet q
    rw [hexec, giveCommand, if_neg (by simp [hawaits]), harrived, serveWaiting_only hown hothers,
      step_of_empty (by exact hpending), serveNext, nextWaiting_only hown hothers]
  case refused =>
    rw [(exec_of_spells hspells s).1, giveCommand_refused c bs hquiet hrole]
    exact congrArg _ (State.modPort_congr _ _ _ _ rfl)

end Sys2Proof.Machine
end


section
/-! PROOFS. A byte, a bit or the end of a transfer at a port whose step waits (09_station_ports.md R163 to R165): it comes
after the arbiter's next service, since no service looks at the bytes that wait at a port. -/

namespace Sys2Proof.Machine

variable {s t : State} {p q r : PortNo}

/-! ### States that differ in their ports -/

theorem State.eq_of_ports (h : { t with ports := s.ports } = s) (hp : ∀ r, t.port r = s.port r) : t = s := by
  have hports : t.ports = s.ports := Vector.ext fun i hi => hp ⟨i, hi⟩
  rw [← h, ← hports]

theorem State.modPort_comm {f g : Port → Port} (h : ∀ P, f (g P) = g (f P)) (s : State) :
    (s.modPort p f).modPort q g = (s.modPort q g).modPort p f := by
  refine State.eq_of_ports rfl fun r => ?_
  simp only [State.modPort_port]
  by_cases hp : r = p
  · subst hp
    by_cases hq : r = q
    · subst hq; simp [h]
    · simp [hq]
  · by_cases hq : r = q
    · subst hq; simp [hp]
    · simp [hp, hq]

/-! ### A port with its bits dropped and bytes put by -/

/-- A port at which a byte has completed, and at which these bytes wait behind a step. -/
def Port.queued (hs : List HeldByte) (P : Port) : Port :=
  { P with partialBits := [], lastOut := none, held := P.held ++ hs }

theorem natural_queued (hs : List HeldByte) : Natural (Port.queued hs) := fun _ _ _ => rfl

theorem onPort_of_turn {F : Port → Port} {u : PortNo} (h : s.turn = u) : s.onPort p F u = s.modPort p F := by
  subst h; rfl

/-- A service that does not look at the port does not see the bytes put by, and neither does its answer. -/
theorem modPort_onPort {f : Port → Port} {hs : List HeldByte} {u : PortNo} (h : ∀ P, f (P.queued hs) = (f P).queued hs)
    (s : State) : (s.onPort p (Port.queued hs) u).modPort q f = (s.modPort q f).onPort p (Port.queued hs) u := by
  have hcomm := State.modPort_comm (p := p) (q := q) (f := Port.queued hs) (g := f) (fun P => (h P).symm) s
  exact congrArg (fun t : State => { t with turn := u }) hcomm

theorem onPort_port_view {α : Type} (view : Port → α) {hs : List HeldByte} {u : PortNo}
    (h : ∀ P, view (P.queued hs) = view P) (s : State) (r : PortNo) :
    view ((s.onPort p (Port.queued hs) u).port r) = view (s.port r) := by
  show view ((s.modPort p (Port.queued hs)).port r) = _
  rw [State.modPort_port]
  split
  · next hr => subst hr; exact h _
  · rfl

variable {hs : List HeldByte} {u : PortNo}

theorem finishAction_onPort {o o' : Served} (h : o' = o.onPort p (Port.queued hs) u) :
    finishAction q o' = (finishAction q o).onPort p (Port.queued hs) u := by
  subst h
  exact modPort_onPort (by exact fun _ => rfl) o.state

theorem finishRead_onPort {o o' : ReadOut} (hr : o'.result = o.result) (hb : o'.body = o.body)
    (h : o'.state = o.state.onPort p (Port.queued hs) u) :
    finishRead q o' = (finishRead q o).onPort p (Port.queued hs) u := by
  unfold finishRead
  rw [hr, hb, h]
  exact modPort_onPort (by exact fun _ => rfl) o.state

theorem finishHeader_onPort (ctx : Option FieldContext) (s : State) :
    finishHeader q ctx (s.onPort p (Port.queued hs) u) = (finishHeader q ctx s).onPort p (Port.queued hs) u :=
  modPort_onPort (by exact fun _ => by cases ctx <;> rfl) s

theorem finishField_onPort {ctx : FieldContext} {o o' : Served} (h : o' = o.onPort p (Port.queued hs) u) :
    finishField q ctx o' = (finishField q ctx o).onPort p (Port.queued hs) u := by
  subst h
  unfold finishField
  exact modPort_onPort (by exact fun _ => rfl) o.state

theorem serveField_onPort (F : Port → Port) (ctx : FieldContext) (bs : List Byte) (s : State) :
    serveField ctx bs (s.onPort p F u) = (serveField ctx bs s).onPort p F u := by
  cases ctx with
  | position k field => exact onPort_servePositionField s p F u k field bs
  | recipe slot index =>
    have hin : slotInUse (s.onPort p F u) slot = slotInUse s slot := onPort_slotInUse ..
    cases h : slotInUse s slot <;> (rw [h] at hin; simp [serveField, serveRecipeField, hin, h] <;> rfl)
  | pattern slot row =>
    have hin : slotInUse (s.onPort p F u) slot = slotInUse s slot := onPort_slotInUse ..
    cases h : slotInUse s slot <;> (rw [h] at hin; simp [serveField, servePatternEntry, hin, h] <;> rfl)

theorem serveSetInterest_onPort (bs : List Byte) (s : State) :
    serveSetInterest q bs (s.onPort p (Port.queued hs) u) = (serveSetInterest q bs s).onPort p (Port.queued hs) u := by
  refine congrArg (fun t => (⟨.ok, decide (512 ≤ beAt bs 0 2), t⟩ : Served)) ?_
  exact modPort_onPort (by exact fun _ => rfl) s

theorem serveForceLine_onPort (bs : List Byte) (s : State) :
    serveForceLine bs (s.onPort p (Port.queued hs) u) = (serveForceLine bs s).onPort p (Port.queued hs) u := by
  simp only [serveForceLine, onPort_forcing]
  (repeat' split) <;> rfl

theorem Port.softReset_queued (P : Port) : (P.queued hs).softReset = P.softReset.queued hs := by
  simp [Port.queued, Port.softReset, Port.close]

theorem mapPorts_softReset_onPort (s : State) : (s.onPort p (Port.queued hs) u).mapPorts Port.softReset
    = (s.mapPorts Port.softReset).onPort p (Port.queued hs) u := by
  refine State.eq_of_ports rfl fun r => ?_
  show ((s.modPort p (Port.queued hs)).mapPorts Port.softReset).port r
    = ((s.mapPorts Port.softReset).modPort p (Port.queued hs)).port r
  simp only [State.mapPorts_port, State.modPort_port]
  split
  · exact Port.softReset_queued _
  · rfl

theorem softReset_onPort (s : State) :
    softReset q (s.onPort p (Port.queued hs) u) = (softReset q s).onPort p (Port.queued hs) u := by
  have hown : ∀ P : Port, (P.queued hs).softResetOwn = P.softResetOwn.queued hs := fun P => by
    rw [Port.softResetOwn, Port.softReset_queued]; rfl
  show (((softResetJobs s).onPort p (Port.queued hs) u).mapPorts Port.softReset).modPort q Port.softResetOwn = _
  rw [mapPorts_softReset_onPort, modPort_onPort hown]
  rfl

/-- No service looks at the bytes that wait at a port. -/
theorem serveCommand_onPort (c : Command) (bs : List Byte) (s : State) :
    serveCommand q c bs (s.onPort p (Port.queued hs) u) = (serveCommand q c bs s).onPort p (Port.queued hs) u := by
  have hnat := natural_queued hs
  cases c
  case setPosition | writeRecipe | writePattern => exact finishHeader_onPort _ s
  case softReset => exact softReset_onPort s
  case setInterest => exact finishAction_onPort (serveSetInterest_onPort bs s)
  case forceLine => exact finishAction_onPort (serveForceLine_onPort bs s)
  case readStatus =>
    have hbody : (readStatus q (s.onPort p (Port.queued hs) u)).body = (readStatus q s).body :=
      onPort_port_view (fun P => [BitVec.ofNat 8 q.val, roleCode P.role, P.statusOf.getD 0xFF, P.lastCommand.getD 0xFF,
        P.lastResult.code] ++ encFlag P.clamped) (fun _ => rfl) s q
    show State.modPort _ q (Port.stream .ok _) = _
    rw [hbody]
    exact modPort_onPort (by exact fun _ => rfl) s
  case readNotices =>
    have hbody : (readNotices q (s.onPort p (Port.queued hs) u)).body = (readNotices q s).body :=
      onPort_port_view (fun P => encNat 2 P.notices.present.toNat ++ P.notices.lanes.toList) (fun _ => rfl) s q
    exact finishRead_onPort rfl hbody
      (modPort_onPort (f := fun P => { P with notices := NoticeSet.empty }) (fun _ => rfl) s)
  case readLine | readRow | readCuts => exact finishRead_onPort rfl rfl rfl
  case readLane =>
    refine finishRead_onPort ?_ ?_ ?_ <;> (simp only [readLane]; split <;> rfl)
  case readTrim =>
    refine finishRead_onPort ?_ ?_ ?_ <;> (simp only [readTrim]; split <;> rfl)
  case readCal =>
    refine finishRead_onPort ?_ ?_ ?_ <;> (simp only [readCal]; split <;> rfl)
  case readPackage =>
    refine finishRead_onPort ?_ ?_ ?_ <;> (simp only [readPackage, onPort_cuts]; split <;> rfl)
  case readMarks =>
    refine finishRead_onPort ?_ ?_ ?_ <;>
      (simp only [readMarks, onPort_markList]; (repeat' split) <;> rfl)
  all_goals exact finishAction_onPort (by simp [hnat])

theorem serveStep_onPort (q : PortNo) (hs : List HeldByte) (s : State) :
    serveStep q (s.modPort p (Port.queued hs)) = (serveStep q s).modPort p (Port.queued hs) := by
  have hview : ∀ {α : Type} (view : Port → α), (∀ P, view (P.queued hs) = view P) →
      view ((s.modPort p (Port.queued hs)).port q) = view (s.port q) := fun view h =>
    onPort_port_view (u := s.turn) view h s q
  have hturn : ∀ t : State, t.turn = q → t.onPort p (Port.queued hs) q = t.modPort p (Port.queued hs) :=
    fun t ht => onPort_of_turn ht
  have hctx := hview Port.context fun _ => rfl
  have hbytes := hview Port.stepBytes fun _ => rfl
  have hcommand := hview Port.command fun _ => rfl
  have hstart : ({ s.modPort p (Port.queued hs) with turn := q } : State)
      = ({ s with turn := q } : State).onPort p (Port.queued hs) q := rfl
  rw [← hturn (serveStep q s)]
  · unfold serveStep
    dsimp only
    rw [hctx, hbytes, hcommand, hstart]
    cases (s.port q).context with
    | some ctx => exact finishField_onPort (serveField_onPort _ ctx _ _)
    | none =>
      dsimp only
      cases (s.port q).command with
      | some c => exact serveCommand_onPort c _ _
      | none => exact modPort_onPort (by exact fun _ => rfl) _
  · cases hreset : (s.port q).asksSoftReset with
    | true => rw [serveStep_softReset hreset]; rfl
    | false => exact (serveStep_answer hreset).turn

/-! ### A byte at a port whose step waits -/

theorem nextWaiting_queued (s : State) (p : PortNo) (hs : List HeldByte) :
    nextWaiting (s.modPort p (Port.queued hs)) = nextWaiting s := by
  have hwait : ∀ q, ((s.modPort p (Port.queued hs)).port q).isWaiting = (s.port q).isWaiting := fun q =>
    onPort_port_view (u := s.turn) Port.isWaiting (fun _ => rfl) s q
  simp only [nextWaiting, hwait]
  rfl

theorem card_waiters_queued (s : State) (p : PortNo) (hs : List HeldByte) :
    waiters (s.modPort p (Port.queued hs)) = waiters s := by
  ext q
  rw [mem_waiters, mem_waiters]
  exact Bool.eq_iff_iff.1 (onPort_port_view (u := s.turn) Port.isWaiting (fun _ => rfl) s q)

theorem queued_held (s : State) (p r : PortNo) (hs : List HeldByte) :
    ((s.modPort p (Port.queued hs)).port r).held = if r = p then (s.port p).held ++ hs else (s.port r).held := by
  rw [State.modPort_port]
  split
  · next h => subst h; rfl
  · rfl

/-- A turn for another port leaves the bytes put by. -/
theorem serveNext_queued_other (hq : nextWaiting s = some q) (hne : q ≠ p) (hh : (s.port q).held = []) :
    serveNext (s.modPort p (Port.queued hs)) = (serveNext s).modPort p (Port.queued hs) := by
  rw [serveNext_of_none_held hq hh, serveNext_of_none_held (by rw [nextWaiting_queued, hq])
    (by rw [queued_held, if_neg hne, hh]), serveStep_onPort]

/-- A turn for the port itself is followed by the byte put by. -/
theorem serveNext_queued_own {b : HeldByte} (hq : nextWaiting s = some p) (hh : (s.port p).held = []) :
    serveNext (s.modPort p (Port.queued [b])) = (serveNext s).modPort p fun P => P.byteDone.takeByte b := by
  have hserve : serveNext (s.modPort p (Port.queued [b]))
      = drainHeld p ((serveStep p s).modPort p (Port.queued [b])) := by
    rw [serveNext, nextWaiting_queued, hq, ← serveStep_onPort]
  have hheld : ((serveStep p s).port p).held = [] := (serveStep_held p s p).trans hh
  rw [hserve, serveNext_of_none_held hq hh, drainHeld_one (b := b), State.modPort_modPort]
  · refine State.modPort_congr _ _ _ _ ?_
    simp only [Port.queued, Port.byteDone, hheld]
  · rw [State.modPort_port_self]
    exact serveStep_served p s
  · rw [queued_held, if_pos rfl, hheld, List.nil_append]

/-- A byte behind a waiting step comes after the arbiter's next service (R163, R168). -/
theorem arrive_serveNext {b : HeldByte} (hh : NoneHeld s) (hw : (s.port p).isWaiting = true) :
    arrive p b ((serveNext s).modPort p Port.byteDone) = arrive p b (s.modPort p Port.byteDone) := by
  have hput : ∀ u : State, (u.port p).isWaiting = true →
      arrive p b (u.modPort p Port.byteDone) = drainHeld p (serveThrough 4 p (u.modPort p (Port.queued [b]))) := by
    intro u hu
    have hwait : ((u.modPort p Port.byteDone).port p).isWaiting = true := by rw [State.modPort_port_self]; exact hu
    have hsame : (u.modPort p Port.byteDone).modPort p (fun P => { P with held := P.held ++ [b] })
        = u.modPort p (Port.queued [b]) := by
      rw [State.modPort_modPort]; rfl
    have hwait' : ((u.modPort p (Port.queued [b])).port p).isWaiting = true := by rw [State.modPort_port_self]; exact hu
    rw [arrive, if_pos hwait, hsame, serveWaiting, if_pos hwait']
  have htaken : ∀ u : State, (u.port p).isWaiting = false →
      arrive p b (u.modPort p Port.byteDone) = u.modPort p fun P => P.byteDone.takeByte b := by
    intro u hu
    have hidle : ((u.modPort p Port.byteDone).port p).isWaiting = false := by rw [State.modPort_port_self]; exact hu
    rw [arrive_idle hidle, State.modPort_modPort]
  obtain ⟨q, hq⟩ := exists_nextWaiting hw
  rw [hput s hw]
  have hq' : nextWaiting (s.modPort p (Port.queued [b])) = some q := by rw [nextWaiting_queued, hq]
  by_cases hqp : q = p
  · subst hqp
    have hheld : ((serveNext s).port q).held = [] := noneHeld_serveNext hh q
    have hserved : ((serveNext s).port q).isWaiting = false := by
      rw [serveNext_of_none_held hq (hh q)]; exact serveStep_served q s
    rw [serveThrough_own _ hq', serveNext_queued_own hq (hh q), htaken _ hserved, drainHeld_nil]
    rw [State.modPort_port_self]
    exact (Port.held_of_wire (Port.takeByte_wire b _)).trans hheld
  · rw [serveThrough_other _ hq' hqp, serveNext_queued_other hq hqp (hh q)]
    obtain hsame | hquiet := isWaiting_serveNext hq (hh q) (Ne.symm hqp)
    · have hwt : ((serveNext s).port p).isWaiting = true := hsame.trans hw
      rw [hput _ hwt, serveThrough_enough (n := 3)]
      · rw [State.modPort_port_self]; exact hwt
      · intro r hr
        rw [queued_held, if_neg hr]
        exact noneHeld_serveNext hh r
      · rw [card_waiters_queued]
        have := waiters_serveNext hq (hh q)
        have := card_waiters_le_four s
        omega
    · have hquiet' : Quiet ((serveNext s).modPort p (Port.queued [b])) := fun r =>
        (onPort_port_view (u := (serveNext s).turn) Port.isWaiting (fun _ => rfl) _ r).trans (hquiet r)
      rw [htaken _ (hquiet p), serveThrough_quiet _ _ hquiet', drainHeld_one (b := b) (hquiet' p), State.modPort_modPort]
      · refine State.modPort_congr _ _ _ _ ?_
        simp only [Port.queued, Port.byteDone, noneHeld_serveNext hh p]
      · rw [queued_held, if_pos rfl, noneHeld_serveNext hh p, List.nil_append]

/-- Serving a waiting step may begin with the arbiter's next service (R168). -/
theorem serveWaiting_serveNext (hh : NoneHeld s) (hw : (s.port p).isWaiting = true) :
    serveWaiting p (serveNext s) = serveWaiting p s := by
  obtain ⟨q, hq⟩ := exists_nextWaiting hw
  have hrun : serveWaiting p s = serveThrough 4 p s := if_pos hw
  rw [hrun]
  by_cases hqp : q = p
  · subst hqp
    have hserved : ((serveNext s).port q).isWaiting = false := by
      rw [serveNext_of_none_held hq (hh q)]; exact serveStep_served q s
    rw [serveThrough_own _ hq, serveWaiting, if_neg (by simp [hserved])]
  · rw [serveThrough_other _ hq hqp]
    obtain hsame | hquiet := isWaiting_serveNext hq (hh q) (Ne.symm hqp)
    · have hwt : ((serveNext s).port p).isWaiting = true := hsame.trans hw
      rw [serveWaiting, if_pos hwt, serveThrough_enough (n := 3) hwt fun r _ => noneHeld_serveNext hh r]
      have := waiters_serveNext hq (hh q)
      have := card_waiters_le_four s
      omega
    · rw [serveThrough_quiet _ _ hquiet, serveWaiting, if_neg (by simp [hquiet p])]

theorem serveNext_transferOpen (hh : NoneHeld s) (p : PortNo) :
    ((serveNext s).port p).transferOpen = (s.port p).transferOpen := by
  cases hq : nextWaiting s with
  | none => rw [serveNext, hq]
  | some q =>
    rw [serveNext_of_none_held hq (hh q)]
    cases hreset : (s.port q).asksSoftReset with
    | true =>
      rw [serveStep_softReset hreset, softReset_port]
      split <;> rfl
    | false =>
      have hanswer := serveStep_answer hreset
      by_cases hp : p = q
      · subst hp
        exact congrArg (·.2.1) hanswer.own
      · exact (congrArg Port.transferOpen (hanswer.others p hp) :)

/-- A field-wise step that still waits after the arbiter's next service waits as it did. -/
theorem fieldStepWaits_serveNext (hh : NoneHeld s) (hw : (s.port p).isWaiting = true)
    (ht : ((serveNext s).port p).isWaiting = true) : ((serveNext s).port p).core = (s.port p).core := by
  obtain ⟨q, hq⟩ := exists_nextWaiting hw
  rw [serveNext_of_none_held hq (hh q)] at ht ⊢
  have hpq : p ≠ q := fun h => by
    subst h
    exact absurd ((serveStep_served p s).symm.trans ht) nofun
  cases hreset : (s.port q).asksSoftReset with
  | true =>
    rw [serveStep_softReset hreset] at ht
    exact absurd ((softReset_quiet q _ p).symm.trans ht) nofun
  | false => exact (serveStep_answer hreset).others p hpq

/-- The end of a transfer behind a field-wise step comes after the arbiter's next service (R98 to R100, R164). -/
theorem endTransfer_serveNext (hh : NoneHeld s) (ho : (s.port p).transferOpen = true) (hbits : (s.port p).partialBits = [])
    (hf : (s.port p).fieldStepWaits = true) : endTransfer p (serveNext s) = endTransfer p s := by
  have hw : (s.port p).isWaiting = true := (Bool.and_eq_true_iff.1 hf).1
  have hserved : ∀ u : State, ((u.port p).isWaiting = true → (u.port p).transferOpen = true ∧
      (u.port p).partialBits = [] ∧ (u.port p).fieldStepWaits = true) →
      endTransfer p u = (serveWaiting p u).modPort p Port.endTransfer := by
    intro u hu
    cases hwu : (u.port p).isWaiting with
    | true =>
      obtain ⟨h1, h2, h3⟩ := hu hwu
      simp [endTransfer, h1, h2, h3]
    | false => simp [endTransfer, Port.fieldStepWaits, serveWaiting, hwu]
  rw [hserved s fun _ => ⟨ho, hbits, hf⟩, hserved (serveNext s) fun ht => ?_, serveWaiting_serveNext hh hw]
  have hcore := fieldStepWaits_serveNext hh hw ht
  exact ⟨(congrArg Port.transferOpen hcore :).trans ho, (congrArg Port.partialBits hcore :).trans hbits,
    (congrArg Port.fieldStepWaits hcore :).trans hf⟩

theorem isFieldWise_iff (c : Command) : c.isFieldWise = true ↔ c.code = 0x42 ∨ c.code = 0x45 ∨ c.code = 0x46 := by
  cases c <;> decide

/-- A step of a field-wise command waits, by the port's context and code (R163). -/
theorem fieldStepWaits_iff (P : Port) : P.fieldStepWaits = true ↔ P.phase = .waiting ∧
    (P.context ≠ none ∨ P.openCommand = some 0x42 ∨ P.openCommand = some 0x45 ∨ P.openCommand = some 0x46) := by
  have hcommand : P.command.any Command.isFieldWise = true ↔
      P.openCommand = some 0x42 ∨ P.openCommand = some 0x45 ∨ P.openCommand = some 0x46 := by
    cases hcode : P.openCommand with
    | none => simp [Port.command, hcode]
    | some b =>
      cases hc : Command.ofCode b with
      | none =>
        simp only [Port.command, hcode, Option.bind_some, hc, Option.any_none, Bool.false_eq_true, Option.some.injEq,
          false_iff, not_or]
        refine ⟨?_, ?_, ?_⟩ <;> (rintro rfl; revert hc; decide)
      | some c =>
        obtain rfl := (ofCode_eq_some_iff b c).1 hc
        simpa [Port.command, hcode] using isFieldWise_iff c
  simp only [Port.fieldStepWaits, Port.isWaiting, Bool.and_eq_true, Bool.or_eq_true, beq_iff_eq, hcommand,
    Option.isSome_iff_ne_none]

/-- Settles O8: what the select line does to the port (R160, R164, R165), and what comes in behind a waiting step
(R163, R168). -/
theorem selectOpensEndsBreaksAndPauses : Obligations.SelectOpensEndsBreaksAndPauses := by
  refine ⟨fun s p b sdi cdn hpending hheld hopen hphase t hstep => ?behind, fun s p => ⟨rfl, fun hopen => ⟨fun hbits =>
    ⟨fun hidle => ?ends, ?pauses⟩, fun hbits => ?breaks⟩⟩⟩
  case behind =>
    rw [step_of_empty hpending] at hstep
    obtain rfl := Host.Outcome.next.inj hstep
    have hw : (s.port p).isWaiting = true := by simp [Port.isWaiting, hphase]
    have hopen' := (serveNext_transferOpen hheld p).trans hopen
    have hrow : ∀ c, byteInTransfer p c b s = byteInTransfer p c b (serveNext s) := fun c => by
      rw [byteInTransfer, if_pos hopen, byteInTransfer, if_pos hopen', arrive_serveNext hheld hw]
    refine ⟨congrArg Host.Outcome.next (hrow false), congrArg Host.Outcome.next (hrow true),
      congrArg Host.Outcome.next ?_, fun hbits hfield => congrArg Host.Outcome.next ?_⟩
    · show clockBit p sdi cdn s = clockBit p sdi cdn (serveNext s)
      rw [clockBit, if_pos hopen, clockBit, if_pos hopen', serveWaiting_serveNext hheld hw]
    · exact (endTransfer_serveNext hheld hopen hbits ((fieldStepWaits_iff _).2 ⟨hphase, hfield⟩)).symm
  case ends =>
    have hnot : (s.port p).fieldStepWaits = false := by
      rw [Bool.eq_false_iff, ne_eq, fieldStepWaits_iff]
      rintro ⟨hphase, hfield⟩
      obtain hne | ⟨h1, h2, h3, h4⟩ := hidle
      · exact hne hphase
      · obtain h | h | h | h := hfield
        exacts [h h1, h2 h, h3 h, h4 h]
    have hend : endTransfer p s = s.modPort p Port.endTransfer := by simp [endTransfer, hnot]
    refine congrArg Host.Outcome.next (hend.trans (State.modPort_congr _ _ _ _ ?_))
    simp [Port.endTransfer, hopen, hbits, Port.close]
  case pauses =>
    refine congrArg Host.Outcome.next (State.modPort_congr _ _ _ _ ?_)
    simp [Port.pauseTransfer, hopen, Port.break, hbits]
  case breaks =>
    refine congrArg Host.Outcome.next (State.modPort_congr _ _ _ _ ?_)
    simp [Port.breakTransfer, hopen, Port.break, hbits]

end Sys2Proof.Machine
end


section
/-! PROOFS. The laws of the cut list, the row list and the panel (08_cuts_and_packages.md R141, 07_knotting_schedule.md
R124), and all laws at reset. -/

namespace Sys2Proof.Machine

/-- A lane in RUN with the cutter at its WATCHING plan, whose reason is that of an END cut: the law of the cut list says
nothing of the reasons of plans. -/
def watchingAnEndCut : State :=
  { State.reset.modLane 0 fun x => { x with state := .run, plan := { state := .watching, planPos := 0, reason := .endCut } }
    with pending := [.coilCutDue 0] }

theorem watchingAnEndCut_lineLaw : LineLaw watchingAnEndCut :=
  ⟨by decide, by decide, by decide⟩

/-- The coil cut that falls due takes the plan's reason, so that an END cut of a lane in RUN joins the list. -/
theorem watchingAnEndCut_joins :
    let t := coilCutDueIfMet 0 { watchingAnEndCut with pending := [] }
    (t.cuts.dueCuts.any fun d => d.what.isEndOf 0) = true ∧ (t.lane 0).state = .run := by
  decide

/-- Refutes O58: a lane in RUN whose WATCHING plan has the reason of an END cut meets every law, and when that plan falls
due an END cut belongs to a lane that is not STOPPING. -/
theorem not_stepKeepsTheCutListAndTheRowList : ¬ Obligations.StepKeepsTheCutListAndTheRowList := by
  intro h
  obtain ⟨⟨-, hlanes, -⟩, -⟩ := h watchingAnEndCut _ watchingAnEndCut_lineLaw rfl
  obtain ⟨-, -, hend⟩ := hlanes 0
  obtain ⟨hany, hrun⟩ := watchingAnEndCut_joins
  exact absurd ((hend (List.any_eq_true.1 hany)).symm.trans hrun) (by decide)

theorem fullReset_boot : fullReset bootStraps bootLines State.reset = State.reset := rfl

theorem lineLaw_reset : LineLaw State.reset :=
  ⟨by decide, by decide, by decide⟩

/-- Settles O52: every law that a full reset establishes, at the reset of the boot straps and lines. -/
theorem lawsHoldAtReset : Obligations.LawsHoldAtReset := by
  unfold Obligations.LawsHoldAtReset
  rw [← fullReset_boot]
  exact ⟨tallyLaw_loose.steady.reset _ _ _, mapLaw_loose.steady.reset _ _ _, markLaw_loose.steady.reset _ _ _,
    placesLaw_loose.steady.reset _ _ _, numberLaw_loose.steady.reset _ _ _, trimLaw_steady.reset _ _ _, lineLaw_reset,
    rangeLaw_steady.reset _ _ _, workLaw_reset _ _ _, portLaw_fullReset _ _ _⟩

end Sys2Proof.Machine
end


section
/-! PROOFS. Numbers in bytes and the tables (09_station_ports.md R174), and the headers, fields and entries of the
field-wise commands (01_lanes_and_positions.md R6, R7; 06_recipes_and_patterns.md R97 to R102). -/

namespace Sys2Proof.Machine

variable {s t : State} {p : PortNo}

/-! ### Numbers in bytes -/

theorem beNat_foldl (bs : List Byte) (a : Nat) :
    bs.foldl (fun a b => a * 256 + b.toNat) a = a * 256 ^ bs.length + beNat bs := by
  induction bs generalizing a with
  | nil => simp [beNat]
  | cons b bs ih =>
    simp only [List.foldl_cons, beNat, List.length_cons]
    rw [ih, ih (0 * 256 + b.toNat)]
    ring

theorem beNat_cons (b : Byte) (bs : List Byte) : beNat (b :: bs) = b.toNat * 256 ^ bs.length + beNat bs := by
  show (b :: bs).foldl (fun a b => a * 256 + b.toNat) 0 = _
  rw [List.foldl_cons, beNat_foldl, Nat.zero_mul, Nat.zero_add]

/-- n bytes carry a number modulo 256 to the power of n (R174). -/
theorem beNat_beBytes (n v : Nat) : beNat (beBytes n v) = v % 256 ^ n := by
  induction n with
  | zero => simp [beBytes, beNat, Nat.mod_one]
  | succ n ih =>
    rw [beBytes, beNat_cons, ih, beBytes_length, BitVec.toNat_ofNat]
    show v / 256 ^ n % 256 * 256 ^ n + v % 256 ^ n = _
    rw [Nat.mod_pow_succ, Nat.mul_comm, Nat.add_comm]

theorem beNat_beBytes_of_lt {n v : Nat} (h : v < 256 ^ n) : beNat (beBytes n v) = v := by
  rw [beNat_beBytes, Nat.mod_eq_of_lt h]

/-- Settles O11: the numbers by induction on their bytes, the tables by evaluation (R97, R174, R176). -/
theorem numbersAndTablesAreTheManuals : Obligations.NumbersAndTablesAreTheManuals :=
  ⟨fun n v => ⟨beBytes_length n v, beNat_beBytes n v⟩, by decide, by decide, by decide⟩

/-! ### Headers -/

theorem recipeHeader_ofNat (slot : SlotNo) (first : Fin 29) :
    recipeHeader [BitVec.ofNat 8 slot.val, BitVec.ofNat 8 first.val] = some (.recipe slot first.val) := by
  revert slot first; decide

theorem recipeHeader_none {b first : Byte} (h : 4 ≤ b.toNat ∨ 29 ≤ first.toNat) : recipeHeader [b, first] = none := by
  cases hb : slotNo b with
  | none => simp [recipeHeader, byteAt, hb]
  | some slot =>
    have hslot : b.toNat < 4 := by
      by_contra hge
      rw [slotNo_none (by omega)] at hb
      exact absurd hb nofun
    simp [recipeHeader, byteAt, hb, show ¬ first.toNat ≤ 28 by omega]

theorem patternHeader_ofNat (slot : SlotNo) (row : Fin 32) :
    patternHeader [BitVec.ofNat 8 slot.val, BitVec.ofNat 8 row.val] = some (.pattern slot row) := by
  revert slot row; decide

theorem patternHeader_none {b first : Byte} (h : 4 ≤ b.toNat ∨ 32 ≤ first.toNat) : patternHeader [b, first] = none := by
  cases hb : slotNo b with
  | none => simp [patternHeader, byteAt, hb]
  | some slot =>
    have hslot : b.toNat < 4 := by
      by_contra hge
      rw [slotNo_none (by omega)] at hb
      exact absurd hb nofun
    simp [patternHeader, byteAt, hb, show ¬ first.toNat < 32 by omega]

/-- A header of a supervisor's field-wise command that names its record (R6, R98, R100). -/
theorem header_accepted {c : Command} {bs : List Byte} {ctx : FieldContext} (h : Ready p .supervise s)
    (hc : c ≠ .readStatus) (hr : c.permits .supervise = true) (hb : bs.length = c.firstBytes)
    (hserve : ∀ t, serveCommand p c bs t = finishHeader p (some ctx) t) : giveCommand p c bs s = s.headed p c ctx :=
  giveHeader_ready c hc bs ctx hserve h.1 h.2.1 (by rw [h.2.2]; exact hr) hb

/-- A header of a supervisor's field-wise command that names no record (R6, R98, R100). -/
theorem header_refused {c : Command} {bs : List Byte} (h : Ready p .supervise s) (hc : c ≠ .readStatus)
    (hr : c.permits .supervise = true) (hb : bs.length = c.firstBytes)
    (hserve : ∀ t, serveCommand p c bs t = finishHeader p none t) :
    giveCommand p c bs s = s.answered p c .range false :=
  giveHeader_refused c hc bs hserve h.1 h.2.1 (by rw [h.2.2]; exact hr) hb

/-! ### Fields and entries -/

/-- The port's record after a field or an entry: it goes on to the next one, or discards (R6, R98, R100). -/
def Port.fieldServed (next : Option FieldContext) (r : Result) (clamped : Bool) (P : Port) : Port :=
  { P with
    phase := if next.isSome then .parameters else .discarding
    stepBytes := [], context := next, lastResult := r, clamped := P.clamped || clamped }

theorem finishField_onPort_asked (ctx : FieldContext) (bs : List Byte) (o : Served) :
    finishField p ctx (o.onPort p (fun P => { P with stepBytes := bs, phase := .waiting }) p) =
      { o.state.modPort p (Port.fieldServed (if o.result = .ok then ctx.next else none) o.result o.clamped)
        with turn := p } := by
  unfold finishField
  exact congrArg (fun u : State => { u with turn := p }) (State.modPort_modPort o.state p _
    (Port.fieldServed (if o.result = .ok then ctx.next else none) o.result o.clamped))

/-- A field or entry at a port that stands at it: its service, and what the answer leaves on the port (R163, R167). -/
theorem giveField_served {isHere : FieldContext → Bool} {ctx : FieldContext} {bs : List Byte} (hs : Quiet s)
    (hh : (s.port p).held = []) (hph : (s.port p).phase = .parameters) (hctx : (s.port p).context = some ctx)
    (hhere : isHere ctx = true) {o : Served} (ho : serveField ctx bs s = o) :
    giveField p isHere bs s =
      { o.state.modPort p (Port.fieldServed (if o.result = .ok then ctx.next else none) o.result o.clamped)
        with turn := p } := by
  subst ho
  have hports : (serveField ctx bs s).state.ports = s.ports := (congrArg State.ports (serveField_frame ctx bs s) :)
  rw [giveField_ready isHere ctx bs hs hctx hhere hph, serveField_onPort, finishField_onPort_asked, drainHeld_nil]
  show ((State.modPort _ p _).port p).held = []
  rw [State.modPort_port_self]
  show ((serveField ctx bs s).state.ports[p]).held = []
  rw [hports]
  exact hh

/-- The test of R7 that refuses a field of SET_POSITION. -/
theorem positionFieldRefused_iff (s : State) (k : PosNo) (field : PositionField) (v : Nat) :
    positionFieldRefused s k field v = true ↔ (s.cal k).state = .passA ∨ (s.cal k).state = .passB ∨
      (field = .inService ∧ v = 0 ∧ ∃ l, (s.position k).mappedLane = some l ∧ (s.lane l).state ≠ .idle) := by
  have huse : mappedInUse s k = true ↔ ∃ l, (s.position k).mappedLane = some l ∧ (s.lane l).state ≠ .idle := by
    cases h : (s.position k).mappedLane <;> simp [mappedInUse, h]
  simp only [positionFieldRefused, CalRecord.running, Bool.or_eq_true, Bool.and_eq_true, beq_iff_eq, huse, or_assoc,
    and_assoc]

theorem clampNat_bne {lo hi v : Nat} (h : lo ≤ hi) : (clampNat lo hi v != v) = decide (v < lo ∨ hi < v) := by
  rw [Bool.eq_iff_iff, bne_iff_ne, decide_eq_true_iff]
  unfold clampNat; omega

/-- A refused field or entry ends the command's effect (R7, R102). -/
theorem giveField_refused {isHere : FieldContext → Bool} {ctx : FieldContext} {bs : List Byte} {r : Result}
    (hs : Quiet s) (hh : (s.port p).held = []) (hph : (s.port p).phase = .parameters)
    (hctx : (s.port p).context = some ctx) (hhere : isHere ctx = true) (hr : r ≠ .ok)
    (ho : serveField ctx bs s = refuse r s) :
    giveField p isHere bs s =
      { s.modPort p (fun P => { P with phase := .discarding, stepBytes := [], context := none, lastResult := r })
        with turn := p } := by
  rw [giveField_served hs hh hph hctx hhere ho]
  refine congrArg (fun u : State => { u with turn := p }) (State.modPort_congr _ _ _ _ ?_)
  simp [refuse, Port.fieldServed, hr]

/-- The field of SET_POSITION stored (R6). -/
theorem servePositionField_stored {k : PosNo} {field : PositionField} {v : Nat}
    (hr : positionFieldRefused s k field v = false) (hv : v < 256 ^ field.bytes) :
    servePositionField k field (beBytes field.bytes v) s =
      ⟨.ok, storedPositionValue field v != v, s.modPosition k fun x => x.withField field (storedPositionValue field v)⟩ := by
  simp only [servePositionField, beNat_beBytes_of_lt hv, hr, Bool.false_eq_true, if_false]

/-- Settles O12: the headers, and the field that is refused or stored (R6, R7). -/
theorem positionFieldsAreStoredOrRefused : Obligations.PositionFieldsAreStoredOrRefused := by
  refine ⟨fun s p h => ⟨fun k => ?_, fun b hb => ?_, fun slot first => ?_, fun b first hb => ?_, fun slot row => ?_,
    fun b first hb => ?_⟩, ?fields⟩
  · exact congrArg Host.Outcome.next (header_accepted h (by decide) rfl rfl fun t => by
      simp [serveCommand, positionHeader, byteAt])
  · exact congrArg Host.Outcome.next (header_refused h (by decide) rfl rfl fun t => by
      simp [serveCommand, positionHeader, byteAt, posNo_none hb])
  · exact congrArg Host.Outcome.next (header_accepted h (by decide) rfl rfl fun t => by
      rw [serveCommand, recipeHeader_ofNat])
  · exact congrArg Host.Outcome.next (header_refused h (by decide) rfl rfl fun t => by
      rw [serveCommand, recipeHeader_none hb])
  · exact congrArg Host.Outcome.next (header_accepted h (by decide) rfl rfl fun t => by
      rw [serveCommand, patternHeader_ofNat])
  · exact congrArg Host.Outcome.next (header_refused h (by decide) rfl rfl fun t => by
      rw [serveCommand, patternHeader_none hb])
  intro s p k field v hs hh hph hctx hv x refused stored
  refine ⟨fun href => ?_, fun href => ?_⟩
  · have hserve : serveField (.position k field) (beBytes field.bytes v) s = refuse .state s := by
      have hr := (positionFieldRefused_iff s k field v).2 href
      simp only [serveField, servePositionField, beNat_beBytes_of_lt hv, hr, if_true]
    exact congrArg Host.Outcome.next (giveField_refused hs hh hph hctx (by simp [atPositionField]) (by decide) hserve)
  · have hr : positionFieldRefused s k field v = false :=
      Bool.eq_false_iff.2 fun h => href ((positionFieldRefused_iff s k field v).1 h)
    refine (congrArg Host.Outcome.next (giveField_served (isHere := atPositionField field) hs hh hph hctx
      (by simp [atPositionField]) (servePositionField_stored hr hv))).trans ?_
    have hstored : stored.1 = x.withField field (storedPositionValue field v) := by cases field <;> rfl
    rw [hstored]
    refine congrArg (fun u : State => Host.Outcome.next
      { u with turn := p, positions := s.positions.set k (x.withField field (storedPositionValue field v)) })
      (State.modPort_congr s p (Port.fieldServed ((nextPositionField field).map (.position k)) .ok
        (storedPositionValue field v != v)) _ ?_)
    cases field <;> simp [Port.fieldServed, nextPositionField, storedPositionValue, clampNat_bne, stored]

/-! ### Recipe fields and pattern entries -/

/-- The value that a delivered number carries: two's complement in one byte for trim_min and trim_max (R97, R176). -/
def givenValue (index v : Nat) : Int := if (index = 6 ∨ index = 7) ∧ 128 ≤ v then (v : Int) - 256 else v

theorem recipeRange_signed (index : Fin 29) :
    (recipeRange index.val).signed = decide (index.val = 6 ∨ index.val = 7) := by
  revert index; decide

theorem rawFieldValue_beBytes {index v : Nat} (hi : index ≤ 28) (hv : v < 256 ^ recipeFieldBytes index) :
    rawFieldValue index (beBytes (recipeFieldBytes index) v) = givenValue index v := by
  have hsigned := recipeRange_signed ⟨index, by omega⟩
  simp only at hsigned
  rw [rawFieldValue, hsigned, givenValue]
  by_cases h : index = 6 ∨ index = 7
  · have hwidth : recipeFieldBytes index = 1 := by obtain rfl | rfl := h <;> rfl
    rw [hwidth] at hv ⊢
    have hbyte : byteAt (beBytes 1 v) 0 = BitVec.ofNat 8 v := by simp [beBytes, byteAt]
    simp only [h, decide_true, if_true, true_and, hbyte, BitVec.toInt_eq_toNat_cond, BitVec.toNat_ofNat]
    rw [Nat.mod_eq_of_lt (by omega)]
    split_ifs <;> omega
  · simp [h, beNat_beBytes_of_lt hv]

theorem serveRecipeField_stored {slot : SlotNo} {index v : Nat} (hu : ¬ InUse s slot) (hi : index ≤ 28)
    (hv : v < 256 ^ recipeFieldBytes index) :
    serveRecipeField slot index (beBytes (recipeFieldBytes index) v) s =
      ⟨.ok, storedFieldValue index (givenValue index v) != givenValue index v,
        s.setRecipe slot ((s.recipe slot).withField index (storedFieldValue index (givenValue index v)))⟩ := by
  have hin : slotInUse s slot = false := Bool.eq_false_iff.2 fun h => hu ((slotInUse_iff s slot).1 h)
  simp only [serveRecipeField, rawFieldValue_beBytes hi hv, hin, Bool.false_eq_true, if_false, fieldClamps]

theorem servePatternEntry_stored {slot : SlotNo} {row : Fin 32} (entry : BitVec 16) (hu : ¬ InUse s slot) :
    servePatternEntry slot row (beBytes 2 entry.toNat) s =
      ⟨.ok, decide (128 ≤ entry.toNat),
        s.setRecipe slot { s.recipe slot with pattern := (s.recipe slot).pattern.set row (entry.setWidth 7) }⟩ := by
  have hin : slotInUse s slot = false := Bool.eq_false_iff.2 fun h => hu ((slotInUse_iff s slot).1 h)
  have hlow : junctionsOfByte (byteAt (beBytes 2 entry.toNat) 1) = entry.setWidth 7 := by
    apply BitVec.eq_of_toNat_eq
    simp [beBytes, byteAt, junctionsOfByte]
  have hdrop : (byteAt (beBytes 2 entry.toNat) 0 != 0 || marksOther (byteAt (beBytes 2 entry.toNat) 1))
      = decide (128 ≤ entry.toNat) := by
    have hlt : entry.toNat < 65536 := entry.isLt
    simp only [beBytes, byteAt, marksOther, List.getD_cons_zero, List.getD_cons_succ, Nat.pow_one, Nat.pow_zero,
      Nat.div_one]
    rw [Bool.eq_iff_iff, Bool.or_eq_true, bne_iff_ne, ne_eq, BitVec.toNat_eq, BitVec.getLsbD, BitVec.toNat_ofNat,
      BitVec.toNat_ofNat, Nat.testBit_eq_decide_div_mod_eq, decide_eq_true_iff, decide_eq_true_iff]
    show ¬ entry.toNat / 256 % 256 = 0 ∨ entry.toNat % 256 / 128 % 2 = 1 ↔ _
    omega
  simp only [servePatternEntry, hin, Bool.false_eq_true, if_false, hlow, hdrop]

/-- Settles O13: a field and an entry, each refused in a slot in use and stored otherwise (R97, R98, R100, R102). -/
theorem recipeFieldsAndPatternsAreStoredOrRefused : Obligations.RecipeFieldsAndPatternsAreStoredOrRefused := by
  refine ⟨?fields, ?entries, fun r v => ?table⟩
  case fields =>
    intro s p slot index v hs hh hph hctx hi hv given kept
    refine ⟨fun hu => ?_, fun hu => ?_⟩
    · have hserve : serveField (.recipe slot index) (beBytes (recipeFieldBytes index) v) s = refuse .inUse s := by
        simp only [serveField, serveRecipeField, (slotInUse_iff s slot).2 hu, if_true]
      exact congrArg Host.Outcome.next (giveField_refused hs hh hph hctx (by simp [atRecipeField]) (by decide) hserve)
    · refine (congrArg Host.Outcome.next (giveField_served (isHere := atRecipeField index) hs hh hph hctx
        (by simp [atRecipeField]) (serveRecipeField_stored hu hi hv))).trans ?_
      refine congrArg (fun u : State => Host.Outcome.next
          { u with turn := p, recipes := s.recipes.set slot ((s.recipe slot).withField index kept) })
        (State.modPort_congr s p (Port.fieldServed
          (if index < 28 then some (.recipe slot (index + 1)) else none) .ok (kept != given)) _ ?_)
      have hbne : (kept != given) = decide (kept ≠ given) := by rw [Bool.eq_iff_iff, bne_iff_ne, decide_eq_true_iff]
      by_cases hlast : index = 28
      · simp [Port.fieldServed, hlast, hbne]
      · simp [Port.fieldServed, hlast, hbne, show index < 28 by omega]
  case entries =>
    intro s p slot row entry hs hh hph hctx
    refine ⟨fun hu => ?_, fun hu => ?_⟩
    · have hserve : serveField (.pattern slot row) (beBytes 2 entry.toNat) s = refuse .inUse s := by
        simp only [serveField, servePatternEntry, (slotInUse_iff s slot).2 hu, if_true]
      exact congrArg Host.Outcome.next (giveField_refused hs hh hph hctx rfl (by decide) hserve)
    · exact congrArg Host.Outcome.next (giveField_served (isHere := atPatternEntry) hs hh hph hctx
        rfl (servePatternEntry_stored entry hu))
  case table => exact ⟨rfl, rfl, rfl, rfl, rfl, rfl, rfl, rfl, rfl, rfl, rfl, rfl, rfl, rfl, rfl, rfl, rfl, rfl, rfl, rfl,
    rfl, rfl, rfl, rfl, rfl, rfl, rfl, rfl, rfl⟩

end Sys2Proof.Machine
end


section
/-! PROOFS. No field of a recipe slot changes while the slot is in use (06_recipes_and_patterns.md R102): only a field or
an entry writes the recipe store, and it is refused in a slot in use. -/

namespace Sys2Proof.Machine

variable {s t : State} {p q : PortNo} {i : SlotNo}

theorem recipe_of_fixed (h : t.fixed = s.fixed) (i : SlotNo) : t.recipe i = s.recipe i := by
  rw [State.recipe, State.recipe, recipes_of_fixed h]

theorem serveField_recipe (h : InUse s i) (ctx : FieldContext) (bs : List Byte) :
    (serveField ctx bs s).state.recipe i = s.recipe i := by
  have hwrite : ∀ (slot : SlotNo) (r : Recipe), slotInUse s slot = false → (s.setRecipe slot r).recipe i = s.recipe i := by
    intro slot r hslot
    have hne : i ≠ slot := fun heq => by
      rw [← heq, (slotInUse_iff s i).2 h] at hslot
      exact absurd hslot nofun
    rw [State.setRecipe_recipe, if_neg hne]
  cases ctx with
  | position k field => exact recipe_of_fixed (servePositionField_fixed s k field bs) i
  | recipe slot index =>
    simp only [serveField, serveRecipeField]
    split
    · rfl
    · next hslot => exact hwrite slot _ (Bool.eq_false_iff.2 hslot)
  | pattern slot row =>
    simp only [serveField, servePatternEntry]
    split
    · rfl
    · next hslot => exact hwrite slot _ (Bool.eq_false_iff.2 hslot)

theorem serveCommand_recipe (c : Command) (bs : List Byte) (s : State) :
    (serveCommand q c bs s).recipe i = s.recipe i := by
  have haction : ∀ o : Served, o.state.fixed = s.fixed → (finishAction q o).recipe i = s.recipe i := fun o h =>
    recipe_of_fixed (t := o.state) h i
  have hread : ∀ o : ReadOut, o.state = s → (finishRead q o).recipe i = s.recipe i := fun o h => by
    show o.state.recipe i = _
    rw [h]
  cases c
  case setPosition | writeRecipe | writePattern | softReset | readStatus | readNotices | setInterest => rfl
  case forceLine =>
    show (serveForceLine bs s).state.recipe i = _
    unfold serveForceLine
    (repeat' split) <;> rfl
  case readLane => exact hread _ (readLane_state bs s)
  case readMarks => exact hread _ (readMarks_state bs s)
  case readPackage => exact hread _ (readPackage_state s)
  case readTrim => exact hread _ (readTrim_state bs s)
  case readCal => exact hread _ (readCal_state bs s)
  case readLine | readRow | readCuts => exact hread _ rfl
  all_goals exact haction _ (by simp)

theorem serveStep_recipe (h : InUse s i) (q : PortNo) : (serveStep q s).recipe i = s.recipe i := by
  unfold serveStep
  dsimp only
  split
  · next ctx _ => exact serveField_recipe (s := { s with turn := q }) h ctx _
  · split
    · exact serveCommand_recipe _ _ _
    · rfl

theorem drain_recipe (p : PortNo) (hs : List HeldByte) (s : State) : (drain p hs s).recipe i = s.recipe i := by
  induction hs generalizing s with
  | nil => rfl
  | cons b bs ih =>
    rw [drain]
    split
    · rfl
    · exact ih _

theorem drainHeld_recipe (p : PortNo) (s : State) : (drainHeld p s).recipe i = s.recipe i := drain_recipe p _ _

theorem serveNext_recipe (h : InUse s i) : (serveNext s).recipe i = s.recipe i := by
  unfold serveNext
  split
  · rfl
  · exact (drainHeld_recipe _ _).trans (serveStep_recipe h _)

/-! ### One row, with no step waiting before it -/

theorem serveWaiting_idle (h : (s.port p).isWaiting = false) : serveWaiting p s = s := by
  simp [serveWaiting, h]

theorem arrive_idle_recipe (h : (s.port p).isWaiting = false) (b : HeldByte) : (arrive p b s).recipe i = s.recipe i := by
  rw [arrive_idle h]; rfl

theorem giveCommand_recipe (hs : Quiet s) {c : Command} {bs : List Byte} (hb : bs.length = c.firstBytes) :
    (giveCommand p c bs s).recipe i = s.recipe i := by
  by_cases hc : c = .readStatus
  · subst hc
    obtain rfl : bs = [] := List.length_eq_zero_iff.1 hb
    rw [giveCommand_readStatus hs, drainHeld_recipe]; rfl
  · cases hr : c.permits (s.port p).role with
    | true => rw [giveCommand_ready c hc bs hs hr hb, drainHeld_recipe, serveCommand_recipe]; rfl
    | false => rw [giveCommand_refused c bs hs hr]; rfl

theorem giveField_recipe (hs : Quiet s) (hu : InUse s i) (isHere : FieldContext → Bool) (bs : List Byte) :
    (giveField p isHere bs s).recipe i = s.recipe i := by
  have hsame : (if (s.port p).standsAt isHere bs then s else serveWaiting p s) = s := by
    rw [serveWaiting_idle (hs p), ite_self]
  simp only [giveField, hsame]
  split
  · rw [serveWaiting_only (by simp [Port.isWaiting]) (fun q hq => by simp [State.modPort_port, hq, hs q]),
      drainHeld_recipe]
    exact serveStep_recipe (s := s.modPort p _) hu p
  · rfl

theorem byteInTransfer_recipe (hs : Quiet s) (isCommand : Bool) (b : Byte) :
    (byteInTransfer p isCommand b s).recipe i = s.recipe i := by
  unfold byteInTransfer
  split
  · exact arrive_idle_recipe (by rw [State.modPort_port_self]; exact hs p) _
  · rfl

theorem clockBit_recipe (hs : Quiet s) (sdi cdn : Bool) : (clockBit p sdi cdn s).recipe i = s.recipe i := by
  unfold clockBit takeBit
  rw [serveWaiting_idle (hs p)]
  split
  · dsimp only
    split
    · rfl
    · exact arrive_idle_recipe (by rw [State.modPort_port_self]; exact hs p) _
  · rfl

theorem endTransfer_recipe (hs : Quiet s) : (endTransfer p s).recipe i = s.recipe i := by
  simp only [endTransfer, serveWaiting_idle (hs p), ite_self]
  rfl

theorem wheelCount_recipe (d : Direction) (k : PosNo) (s : State) : (wheelCount d k s).recipe i = s.recipe i := by
  have h : (wheelCount d k s).fixed = (s.modWheel k (pairStep d)).fixed :=
    (atMappedLane_fixed k _ (fun l u => laneCount_fixed u _ _ l) _).trans (by simp)
  rw [recipe_of_fixed h, State.modWheel_recipe]

theorem drawCount_recipe (d : Direction) (s : State) : (drawCount d s).recipe i = s.recipe i := by
  rw [drawCount, recipe_of_fixed (drawWatchers_fixed _)]
  rfl

theorem positionFlyer_fixed (k : PosNo) (s : State) : (positionFlyer k s).fixed = s.fixed :=
  atMappedLane_fixed k _ (fun l u => flyerPulse_fixed u l) s

theorem positionCapstanRising_fixed (k : PosNo) (s : State) : (positionCapstanRising k s).fixed = s.fixed :=
  (calRising_fixed _ k).trans (atMappedLane_fixed k _ (fun l u => capstanPulse_fixed u l) s)

/-- A row that is not a reset leaves the slots in use, where no step waits before it (R102). -/
theorem exec_recipe (hs : Quiet s) (hu : InUse s i) {c : Instr}
    (hc : ∀ straps lines, c ≠ .powerOnReset straps lines ∧ c ≠ .hardReset straps lines) (h : exec c s = .next t) :
    t.recipe i = s.recipe i := by
  have hspells : ∀ {p k bs}, c.spells = some (p, k, bs) → t.recipe i = s.recipe i := fun hsp => by
    obtain ⟨hexec, hlen⟩ := exec_of_spells hsp s
    obtain rfl := Host.Outcome.next.inj (h.symm.trans hexec)
    exact giveCommand_recipe hs hlen
  have hkept : ∀ u : State, exec c s = .next u → u.recipe i = s.recipe i → t.recipe i = s.recipe i :=
    fun u hexec hu => by obtain rfl := Host.Outcome.next.inj (h.symm.trans hexec); exact hu
  have hfixed : ∀ u : State, exec c s = .next u → u.fixed = s.fixed → t.recipe i = s.recipe i :=
    fun u hexec hu => hkept u hexec (recipe_of_fixed hu i)
  cases c
  case powerOnReset straps lines => exact absurd rfl (hc straps lines).1
  case hardReset straps lines => exact absurd rfl (hc straps lines).2
  case transferOpen | transferBreak | transferPause => exact hkept _ rfl rfl
  case bothLinesChange d => exact hkept _ rfl (by cases d <;> rfl)
  case transferEnd => exact hkept _ rfl (endTransfer_recipe hs)
  case commandByte | dataByte => exact hkept _ rfl (byteInTransfer_recipe hs _ _)
  case sckRisingEdge => exact hkept _ rfl (clockBit_recipe hs _ _)
  case setPositionField | writeRecipeField | writePatternEntry => exact hkept _ rfl (giveField_recipe hs hu _ _)
  case wheelCountForward k | wheelCountReverse k => exact hkept _ rfl (wheelCount_recipe _ k s)
  case flyerPulse k => exact hfixed _ rfl (positionFlyer_fixed k s)
  case capstanRisingEdge k => exact hfixed _ rfl (positionCapstanRising_fixed k s)
  case drawCount d => exact hkept _ rfl (drawCount_recipe d s)
  case capstanFallingEdge | threadingEnd | windowEnd | spliceOverlong | tallyLimitReached | coilCutDue | cutLate |
      rowFallsDue | rowTimeout | tailReached | passAClose | passBClose => exact hfixed _ rfl (by simp)
  all_goals exact hspells rfl

/-- Settles O14: at one service of the arbiter, and at one row where no step waits before it (R102). -/
theorem slotInUseDoesNotChange : Obligations.SlotInUseDoesNotChange := by
  intro s i hu
  refine ⟨fun hpending t hstep => ?_, fun c hs hc t h => exec_recipe hs hu hc h⟩
  rw [step_of_empty hpending] at hstep
  obtain rfl := Host.Outcome.next.inj hstep
  exact serveNext_recipe hu

end Sys2Proof.Machine
end


section
/-! PROOFS. The request lines, the stop reasons and the notices (10_notices_stop_requests_and_output_lines.md R180 to R190),
READ_STATUS (09_station_ports.md R169), and the geometry and the wheel factor (02_length_tallies.md R34, R37). -/

namespace Sys2Proof.Machine

variable {s t : State} {p : PortNo}

/-! ### The request lines -/

theorem Forcing.level_low (b : Bool) : Forcing.low.level b = false := rfl
theorem Forcing.level_high (b : Bool) : Forcing.high.level b = true := rfl
theorem Forcing.level_auto (b : Bool) : Forcing.auto.level b = b := rfl

theorem forcingOf_none {b : Byte} (h : 3 ≤ b.toNat) : forcingOf b = none := by
  have hne : ∀ c : Byte, c.toNat < 3 → b ≠ c := fun c hc heq => by subst heq; omega
  rw [forcingOf, if_neg (hne 0 (by decide)), if_neg (hne 1 (by decide)), if_neg (hne 2 (by decide))]

theorem forceLine_none {line : Byte} (h : 3 ≤ line.toNat) (f : Forcing) (x : LineForcing) : forceLine line f x = none := by
  have hne : ∀ c : Byte, c.toNat < 3 → line ≠ c := fun c hc heq => by subst heq; omega
  rw [forceLine, if_neg (hne 0 (by decide)), if_neg (hne 1 (by decide)), if_neg (hne 2 (by decide))]

theorem serveForceLine_range {line setting : Byte} (h : 3 ≤ line.toNat ∨ 3 ≤ setting.toNat) (s : State) :
    serveForceLine [line, setting] s = refuse .range s := by
  show (match forcingOf setting with
    | none => refuse .range s
    | some f => match forceLine line f s.forcing with
      | none => refuse .range s
      | some x => accept { s with forcing := x }) = _
  cases hf : forcingOf setting with
  | none => rfl
  | some f =>
    obtain h | h := h
    · simp only [forceLine_none h]
    · rw [forcingOf_none h] at hf
      exact absurd hf nofun

/-- Settles O15: the level of each line by its forcing, and FORCE_LINE by the line and the setting named (R189, R190). -/
theorem requestLinesFollowTheirState : Obligations.RequestLinesFollowTheirState := by
  refine ⟨fun s => ⟨fun h => ?_, fun h => ?_, fun h => ?_, fun h => ?_, fun h => ?_, fun h => ?_, fun h => ?_, fun h => ?_,
    fun h => ?_⟩, fun s p line setting hready => ⟨fun h => ?_, fun f hf => ⟨fun hl => ?_, fun hl => ?_, fun hl => ?_⟩⟩⟩
  · cases hrows : s.rows <;> simp [State.rowReq, h, Forcing.level_auto, hrows]
  · simp [State.cutReq, h, Forcing.level_auto, CutEntry.isRequested]
  · simp [State.stopReq, h, Forcing.level_auto, StopUnit.any, or_assoc]
  · rw [State.rowReq, h, Forcing.level_low]
  · rw [State.rowReq, h, Forcing.level_high]
  · rw [State.cutReq, h, Forcing.level_low]
  · rw [State.cutReq, h, Forcing.level_high]
  · rw [State.stopReq, h, Forcing.level_low]
  · rw [State.stopReq, h, Forcing.level_high]
  · rw [exec_forceLine_ready line setting hready, serveForceLine_range h]; rfl
  all_goals
    subst hl hf
    rw [exec_forceLine_ready _ _ hready]
    cases f <;> rfl

/-! ### ACK_STOP -/

theorem laneIn_laneSetOf (ls : List LaneNo) (l : LaneNo) : laneIn (laneSetOf ls) l = true ↔ l ∈ ls := by
  have key : ∀ a : LaneSet, laneIn (ls.foldl (fun a l => a ||| laneBit l) a) l = true ↔ laneIn a l = true ∨ l ∈ ls := by
    induction ls with
    | nil => simp
    | cons m ls ih =>
      intro a
      have hor : laneIn (a ||| laneBit m) l = true ↔ laneIn a l = true ∨ l = m := by
        have := laneIn_laneBit m l
        simp only [laneIn, BitVec.getLsbD_or, Bool.or_eq_true] at this ⊢
        rw [this, decide_eq_true_iff]
        exact or_congr_right eq_comm
      rw [List.foldl_cons, ih, hor, List.mem_cons, or_assoc]
  rw [laneSetOf, key]
  simp [laneIn]

theorem anyLate_iff (u : CutUnit) :
    u.anyLate = true ↔ (∃ e ∈ u.list, e.late = true) ∨ ∃ d ∈ u.deferred, d.late = true := by
  simp [CutUnit.anyLate]

theorem laneIn_stillFaulted (s : State) (l : LaneNo) :
    laneIn (stillFaulted s) l = true ↔ laneIn s.stops.faultRecord l = true ∧ (s.lane l).state = .fault := by
  rw [stillFaulted, laneIn_laneSetOf, List.mem_filter, mem_lanesOf_iff, beq_iff_eq, laneIn]

/-- The stop unit after the reasons other than LANE_FAULT have been judged (R186). -/
def reasonsAcked (named : Byte) (s : State) : StopUnit :=
  { s.stops with
    rowOverrun := s.stops.rowOverrun && !named.getLsbD 0
    cutLate := s.stops.cutLate && !(named.getLsbD 1 && !s.cuts.anyLate)
    feed := s.stops.feed && !named.getLsbD 2 }

theorem ackedStops_eq (named : Byte) (s : State) :
    ackedStops named s = ackLaneFault (named.getLsbD 3) s (reasonsAcked named s) := rfl

/-- What the judgement of LANE_FAULT leaves of the other reasons (R186). -/
theorem ackLaneFault_frame (named : Bool) (s : State) (u : StopUnit) :
    { ackLaneFault named s u with laneFault := u.laneFault, faultRecord := u.faultRecord } = u := by
  unfold ackLaneFault
  split <;> rfl

theorem ackLaneFault_judged {named : Bool} {u : StopUnit} (hn : named = true) (hu : u.laneFault = true) (s : State) :
    ackLaneFault named s u = { u with faultRecord := stillFaulted s, laneFault := stillFaulted s != 0 } := by
  simp [ackLaneFault, hn, hu]

theorem ackLaneFault_unjudged {named : Bool} {u : StopUnit} (h : named = false ∨ u.laneFault = false) (s : State) :
    ackLaneFault named s u = u := by
  obtain h | h := h <;> simp [ackLaneFault, h]

/-- Settles O16: the stop unit that ACK_STOP leaves, reason by reason (R186). -/
theorem ackStopRemovesWhatMayGo : Obligations.AckStopRemovesWhatMayGo := by
  intro s p named hready u late
  have hframe := ackLaneFault_frame (named.getLsbD 3) s (reasonsAcked named s)
  have hlate : s.cuts.anyLate = true ↔ late := anyLate_iff s.cuts
  refine ⟨ackedStops named s, ?_, ?_, ?_, ?_, fun hn hu => ?_, fun h => ?_⟩
  · rw [exec_ackStop_ready named hready]
    refine congrArg (fun x : State => Host.Outcome.next (x.answered p .ackStop .ok (decide (16 ≤ named.toNat)))) ?_
    show (if ackedStops named s = s.stops then { s with stops := ackedStops named s } else _) = _
    by_cases h : ackedStops named s = s.stops
    · rw [if_pos h, if_pos h, h]
    · rw [if_neg h, if_neg h]; rfl
  · rw [show (ackedStops named s).rowOverrun = (reasonsAcked named s).rowOverrun from (congrArg StopUnit.rowOverrun hframe :)]
    simp [u, reasonsAcked]
  · rw [show (ackedStops named s).cutLate = (reasonsAcked named s).cutLate from (congrArg StopUnit.cutLate hframe :), ← hlate]
    simp [u, reasonsAcked]
  · rw [show (ackedStops named s).feed = (reasonsAcked named s).feed from (congrArg StopUnit.feed hframe :)]
    simp [u, reasonsAcked]
  · rw [ackedStops_eq, ackLaneFault_judged (u := reasonsAcked named s) hn hu]
    exact ⟨fun l => laneIn_stillFaulted s l, by simp⟩
  · rw [ackedStops_eq, ackLaneFault_unjudged (u := reasonsAcked named s) h]
    exact ⟨rfl, rfl⟩

/-! ### READ_STATUS -/

theorem modPort_held {f : Port → Port} (hf : ∀ P, (f P).held = P.held) (hh : (s.port p).held = []) :
    (({ s.modPort p f with turn := p } : State).port p).held = [] := by
  show ((s.modPort p f).port p).held = []
  rw [State.modPort_port_self, hf, hh]

/-- Settles O17: the response is read off the port as the command left it (R161, R169). -/
theorem readStatusReportsThePort : Obligations.ReadStatusReportsThePort := by
  intro s p hs hh
  show Host.Outcome.next (giveCommand p .readStatus [] s) = _
  have hserve : finishStatus p (readStatus p { s.modPort p Port.openedStatus with turn := p })
      = { s.modPort p (fun P =>
          { P with
            phase := .streaming, openCommand := some 0x01, stepBytes := [], context := none, respPtr := 0,
            statusOf := P.openCommand
            response := Result.ok.code :: (readStatus p { s.modPort p Port.openedStatus with turn := p }).body })
        with turn := p } := by
    refine congrArg (fun u : State => { u with turn := p }) ((State.modPort_modPort s p _ _).trans ?_)
    rfl
  have hport : ({ s.modPort p Port.openedStatus with turn := p } : State).port p = (s.port p).openedStatus :=
    State.modPort_port_self s p _
  rw [giveCommand_readStatus hs, hserve, drainHeld_nil]
  · refine congrArg (fun u : State => Host.Outcome.next { u with turn := p }) (State.modPort_congr s p _ _ ?_)
    simp only [readStatus, readOk, hport, Port.openedStatus, Port.close]
    cases (s.port p).role <;> cases (s.port p).lastResult <;> cases (s.port p).clamped <;> rfl
  · exact modPort_held (by exact fun _ => rfl) hh

/-! ### Notices -/

theorem getLsbD_ne_zero_iff (x : KindSet) : x ≠ 0 ↔ ∃ k : NoticeKind, x.getLsbD k.index.val = true := by
  constructor
  · intro h
    by_contra hno
    refine h (BitVec.eq_of_getLsbD_eq fun i hi => ?_)
    have hkind : ∃ k : NoticeKind, k.index = ⟨i, hi⟩ := by
      generalize (⟨i, hi⟩ : Fin 9) = j
      fin_cases j
      exacts [⟨.laneState, rfl⟩, ⟨.trim, rfl⟩, ⟨.rowDue, rfl⟩, ⟨.rowClosed, rfl⟩, ⟨.cutDue, rfl⟩, ⟨.package, rfl⟩,
        ⟨.stop, rfl⟩, ⟨.cal, rfl⟩, ⟨.recipe, rfl⟩]
    obtain ⟨k, hk⟩ := hkind
    have : i = k.index.val := by rw [hk]
    rw [this, Bool.eq_false_iff.2 fun h => hno ⟨k, h⟩]
    simp
  · rintro ⟨k, hk⟩ rfl
    simp at hk

theorem attention_iff (s : State) (p : PortNo) : s.attention p = true ↔ ∃ k : NoticeKind,
    (s.port p).notices.has k = true ∧ (s.port p).interest.getLsbD k.index.val = true := by
  rw [State.attention, bne_iff_ne, getLsbD_ne_zero_iff]
  simp [NoticeSet.has]

theorem beAt_beBytes (n v : Nat) (bs : List Byte) : beAt (beBytes n v ++ bs) 0 n = v % 256 ^ n := by
  rw [beAt, List.drop_zero, List.take_append_of_le_length (by simp), List.take_of_length_le (by simp), beNat_beBytes]

theorem beAt_append_right {bs cs : List Byte} (i n : Nat) : beAt (bs ++ cs) (bs.length + i) n = beAt cs i n := by
  rw [beAt, beAt, List.drop_append, List.drop_eq_nil_of_le (Nat.le_add_right _ _), List.nil_append,
    Nat.add_sub_cancel_left]

theorem serveSetInterest_eq (p : PortNo) (mask : BitVec 16) (s : State) :
    serveSetInterest p (beBytes 2 mask.toNat) s
      = ⟨.ok, decide (512 ≤ mask.toNat), s.modPort p fun P => { P with interest := mask.setWidth 9 }⟩ := by
  have hv : beAt (beBytes 2 mask.toNat) 0 2 = mask.toNat := by
    have := beAt_beBytes 2 mask.toNat []
    rw [List.append_nil] at this
    rw [this, Nat.mod_eq_of_lt (show mask.toNat < 256 ^ 2 from mask.isLt)]
  have hw : BitVec.ofNat 9 mask.toNat = mask.setWidth 9 :=
    BitVec.eq_of_toNat_eq (by simp)
  simp only [serveSetInterest, hv, hw]

/-- Settles O18: what a raising does to every set, the attention line, and the two commands (R180 to R183). -/
theorem noticesAreRaisedShownAndRead : Obligations.NoticesAreRaisedShownAndRead := by
  refine ⟨fun s k ls => ⟨fun p j => ?_, fun p => ?_, ?_⟩, fun s p => ⟨attention_iff s p, fun hs hh => ⟨?_, fun mask => ?_⟩⟩,
    fun s p mask hs hh => ?_, fun s p hs hh => ⟨?_, by simp⟩⟩
  · rw [State.raise_port, Port.notify, NoticeSet.has_add, NoticeSet.lanesFor_add, Bool.or_comm]
    exact ⟨rfl, rfl⟩
  · rw [State.raise_port]; rfl
  · rfl
  · refine ⟨_, exec_readNotices_ready hs hh, ?_⟩
    rw [Bool.eq_false_iff, ne_eq, attention_iff]
    simp [Port.streamed, NoticeSet.empty, NoticeSet.has]
  · refine ⟨_, exec_setInterest_ready mask hs hh, ?_⟩
    rw [attention_iff, serveSetInterest_eq]
    simp [Port.answered]
  · rw [exec_setInterest_ready mask hs hh, serveSetInterest_eq]
  · exact exec_readNotices_ready hs hh

/-! ### Geometry and factor -/

theorem clampDistance_eq (v : Nat) : clampDistance v = min 100000 v := by
  rw [clampDistance, clampNat, Nat.zero_max]

theorem min_bne (b v : Nat) : (min b v != v) = decide (b < v) := by
  rw [Bool.eq_iff_iff, bne_iff_ne, decide_eq_true_iff]; omega

theorem clampFactor_bne (v : Nat) : (clampFactor v != v) = decide (v < 12800 ∨ 512000 < v) := clampNat_bne (by decide)

theorem serveSetGeometry_eq (dk dc kd : BitVec 24) (s : State) :
    serveSetGeometry (beBytes 3 dk.toNat ++ beBytes 3 dc.toNat ++ beBytes 3 kd.toNat) s =
      if s.allIdle = false then refuse .state s
      else ⟨.ok, decide (100000 < dk.toNat ∨ 100000 < dc.toNat ∨ kd.toNat < 12800 ∨ 512000 < kd.toNat),
        { s with line := { s.line with
            dKnot := min 100000 dk.toNat, dCut := min 100000 dc.toNat, kDraw := max 12800 (min 512000 kd.toNat) } }⟩ := by
  have hlt : ∀ v : BitVec 24, v.toNat % 256 ^ 3 = v.toNat := fun v => Nat.mod_eq_of_lt v.isLt
  have h1 : beAt (beBytes 3 dk.toNat ++ beBytes 3 dc.toNat ++ beBytes 3 kd.toNat) 0 3 = dk.toNat := by
    rw [List.append_assoc, beAt_beBytes, hlt]
  have h2 : beAt (beBytes 3 dk.toNat ++ beBytes 3 dc.toNat ++ beBytes 3 kd.toNat) 3 3 = dc.toNat := by
    have := beAt_append_right (bs := beBytes 3 dk.toNat) (cs := beBytes 3 dc.toNat ++ beBytes 3 kd.toNat) 0 3
    rw [beBytes_length] at this
    rw [List.append_assoc, this, beAt_beBytes, hlt]
  have h3 : beAt (beBytes 3 dk.toNat ++ beBytes 3 dc.toNat ++ beBytes 3 kd.toNat) 6 3 = kd.toNat := by
    have := beAt_append_right (bs := beBytes 3 dk.toNat ++ beBytes 3 dc.toNat) (cs := beBytes 3 kd.toNat ++ []) 0 3
    rw [List.length_append, beBytes_length, beBytes_length, List.append_nil] at this
    rw [this]
    have hlast := beAt_beBytes 3 kd.toNat []
    rw [List.append_nil, hlt] at hlast
    exact hlast
  simp only [serveSetGeometry, h1, h2, h3, clampDistance_eq, min_bne, clampFactor_bne]
  simp only [clampFactor, clampNat, Bool.decide_or, Bool.or_assoc]

theorem serveSetFactor_eq (k : PosNo) (v : BitVec 24) (lock : Byte) (s : State) :
    serveSetFactor ([BitVec.ofNat 8 k.val] ++ beBytes 3 v.toNat ++ [lock]) s =
      if (s.cal k).running then refuse .state s
      else ⟨.ok, decide (v ≠ 0 ∧ (v.toNat < 12800 ∨ 512000 < v.toNat)),
        s.modPosition k fun x =>
          { x with k := if v = 0 then x.k else max 12800 (min 512000 v.toNat), kLocked := lock != 0 }⟩ := by
  have hv : beAt ([BitVec.ofNat 8 k.val] ++ beBytes 3 v.toNat ++ [lock]) 1 3 = v.toNat := by
    have := beAt_append_right (bs := [BitVec.ofNat 8 k.val]) (cs := beBytes 3 v.toNat ++ [lock]) 0 3
    rw [List.append_assoc]
    exact this.trans ((beAt_beBytes 3 v.toNat [lock]).trans (Nat.mod_eq_of_lt v.isLt))
  have hzero : v = 0#24 ↔ v.toNat = 0 := BitVec.toNat_eq (y := 0)
  have hclamp : (v.toNat != 0 && clampFactor v.toNat != v.toNat)
      = decide (v ≠ 0 ∧ (v.toNat < 12800 ∨ 512000 < v.toNat)) := by
    rw [clampFactor_bne, Bool.eq_iff_iff]
    simp [hzero]
  simp only [serveSetFactor, byteAt, List.cons_append, List.nil_append, List.getD_cons_zero, posNo_ofNat]
  simp only [List.cons_append, List.nil_append] at hv
  simp only [hv, hclamp]
  simp only [BitVec.ofNat_eq_ofNat, hzero]
  rfl

theorem serveSetFactor_range {b : Byte} (h : 10 ≤ b.toNat) (bs cs : List Byte) (s : State) :
    serveSetFactor ([b] ++ bs ++ cs) s = refuse .range s := by
  simp [serveSetFactor, byteAt, posNo_none h]

theorem CalRecord.running_iff (c : CalRecord) : c.running = true ↔ c.state = .passA ∨ c.state = .passB := by
  simp [CalRecord.running]

theorem CalRecord.running_eq_false_iff (c : CalRecord) : c.running = false ↔ c.state = .idle ∨ c.state = .done := by
  cases h : c.state <;> simp [CalRecord.running, h]

/-- Settles O30: each outcome of the two services (R34, R37), answered on the port. -/
theorem geometryAndFactorAreStoredClamped : Obligations.GeometryAndFactorAreStoredClamped := by
  intro s p hready
  refine ⟨fun dk dc kd => ⟨fun h => ?_, fun h => ?_⟩, fun b v lock => ⟨fun h => ?_, fun k hk => ⟨fun h => ?_, fun h => ?_⟩⟩⟩
  · rw [exec_setGeometry_ready dk dc kd hready, serveSetGeometry_eq, if_pos (State.allIdle_eq_false_iff s |>.2 h)]
    rfl
  · have hidle : ¬ s.allIdle = false := by rw [(State.allIdle_iff s).2 h]; exact nofun
    rw [exec_setGeometry_ready dk dc kd hready, serveSetGeometry_eq, if_neg hidle]
  · rw [exec_setFactor_ready b v lock hready, serveSetFactor_range h]
    rfl
  · subst hk
    rw [exec_setFactor_ready _ v lock hready, serveSetFactor_eq, if_pos ((CalRecord.running_iff _).2 h)]
    rfl
  · subst hk
    have hrun : ¬ (s.cal k).running = true := Bool.eq_false_iff.1 ((CalRecord.running_eq_false_iff _).2 h)
    rw [exec_setFactor_ready _ v lock hready, serveSetFactor_eq, if_neg hrun]
    rfl

end Sys2Proof.Machine
end


section
/-! PROOFS. The reads (09_station_ports.md R169 to R179): each encoding as the bytes it gives, and each response as the
sequence of its fields. -/

namespace Sys2Proof.Machine

variable {s : State} {p : PortNo}

/-! ### Encodings as bytes -/

theorem beBytes_one (v : Nat) : beBytes 1 v = [BitVec.ofNat 8 v] := by simp [beBytes]

theorem encNat_one (v : Nat) : encNat 1 v = [BitVec.ofNat 8 v] := beBytes_one v

theorem ofNat_mod (v : Nat) : BitVec.ofNat 8 (v % 256) = BitVec.ofNat 8 v := BitVec.eq_of_toNat_eq (by simp)

theorem encFin_some {m : Nat} (k : Fin m) : encFin (some k) = [BitVec.ofNat 8 k.val] := beBytes_one k.val

theorem encFin_none {m : Nat} : encFin (none : Option (Fin m)) = [0xFF] := rfl

theorem encFin_pos (v : Option PosNo) : encFin v = [match v with | some k => BitVec.ofNat 8 k.val | none => 0xFF] := by
  cases v with
  | none => rfl
  | some k => exact encFin_some k

theorem encFin_lane (v : Option LaneNo) : encFin v = [match v with | some l => BitVec.ofNat 8 l.val | none => 0xFF] := by
  cases v with
  | none => rfl
  | some l => exact encFin_some l

theorem encFin_slot (v : Option SlotNo) : encFin v = [match v with | some i => BitVec.ofNat 8 i.val | none => 0xFF] := by
  cases v with
  | none => rfl
  | some i => exact encFin_some i

theorem encOpt_one (v : Option Nat) : encOpt 1 v = [match v with | some n => BitVec.ofNat 8 n | none => 0xFF] := by
  cases v with
  | none => rfl
  | some n => exact beBytes_one n

theorem encFlag_eq (b : Bool) : encFlag b = [if b then 1 else 0] := rfl

theorem encTrim_eq (v : Int) : encTrim v = [BitVec.ofInt 8 v] := rfl

theorem encUm_eq (v : Nat) : encUm v = beBytes 6 v := rfl

theorem streamed_congr {c : Command} {r : Result} {bs bs' : List Byte} (h : bs = bs') (s : State) :
    (Host.Outcome.next (s.streamed p c r bs) : Host.Outcome State Fault Refusal) = .next (s.streamed p c r bs') := by
  rw [h]

/-! ### READ_LANE and READ_TRIM -/

theorem readLane_range {b : Byte} (h : 8 ≤ b.toNat) (s : State) : readLane [b] s = readRefused .range s := by
  simp [readLane, byteAt, laneNo_none h]

theorem readLane_ofNat (l : LaneNo) (s : State) : readLane [BitVec.ofNat 8 l.val] s = readOk (laneBytes s l) s := by
  simp [readLane, byteAt]

theorem readTrim_range {b : Byte} (h : 8 ≤ b.toNat) (s : State) : readTrim [b] s = readRefused .range s := by
  simp [readTrim, byteAt, laneNo_none h]

/-- The fields of READ_TRIM, in the order of R76. -/
def trimBytes (s : State) (l : LaneNo) : List Byte :=
  let x := s.lane l
  let r := s.activeRecipe l
  [x.state.code] ++ encTrim x.trim ++ encTrim r.trimMin ++ encTrim r.trimMax ++ encOpt 3 x.lastTpm
    ++ encNat 1 x.periodIndex ++ encNat 1 x.highCount ++ encNat 1 x.lowCount ++ encFlag x.limitStrike
    ++ encNat 1 x.slipRun ++ encFlag x.trimLimited ++ encUm (windowProgress x)

theorem readTrim_ofNat (l : LaneNo) (s : State) : readTrim [BitVec.ofNat 8 l.val] s = readOk (trimBytes s l) s := by
  have hbyte : byteAt [BitVec.ofNat 8 l.val] 0 = BitVec.ofNat 8 l.val := rfl
  simp only [readTrim, hbyte, laneNo_ofNat]
  rfl

/-- Settles O19: the fields of the lane record, and those of its trim, in their order (R76, R170). -/
theorem readLaneAndReadTrimReportTheLane : Obligations.ReadLaneAndReadTrimReportTheLane := by
  refine ⟨fun s p b hs hh => ⟨fun h => ?_, fun l hl => ?_⟩, fun s p b hready => ⟨fun h => ?_, fun l hl => ?_⟩⟩
  · rw [exec_readLane_ready b hs hh, readLane_range h]; rfl
  · subst hl
    refine (exec_readLane_ready _ hs hh).trans ?_
    rw [readLane_ofNat]
    refine streamed_congr ?_ s
    show laneBytes s l = _
    unfold laneBytes State.cutterCoord
    generalize s.lane l = x
    simp only [encFin_pos, encFin_slot, encNat_one, ofNat_mod, encFlag_eq, encTrim_eq, encPlan, encUm_eq,
      List.append_assoc, List.cons_append, List.nil_append]
    rfl
  · rw [exec_readTrim_ready b hready, readTrim_range h]; rfl
  · subst hl
    refine (exec_readTrim_ready _ hready).trans ?_
    rw [readTrim_ofNat]
    refine streamed_congr ?_ s
    show trimBytes s l = _
    unfold trimBytes State.activeRecipe
    generalize s.lane l = x
    simp only [encNat_one, encFlag_eq, encTrim_eq, encUm_eq, List.append_assoc, List.cons_append, List.nil_append]
    rfl

/-! ### READ_MARKS and READ_PACKAGE -/

theorem readMarks_range {b first : Byte} (h : 8 ≤ b.toNat ∨ 96 ≤ first.toNat) (s : State) :
    readMarks [b, first] s = readRefused .range s := by
  cases hb : laneNo b with
  | none => simp [readMarks, byteAt, hb]
  | some l =>
    have hlane : ¬ 8 ≤ b.toNat := fun hge => by rw [laneNo_none hge] at hb; exact absurd hb nofun
    simp [readMarks, byteAt, hb, h.resolve_left hlane]

theorem markPresence_eq (m : Mark) : markPresence m = BitVec.ofNat 8 (m.extent.isSome.toNat + 2 * m.sense.isSome.toNat
    + 4 * m.row.isSome.toNat + 8 * m.junction.isSome.toNat) := by
  have key : ∀ a b c d : Bool, (BitVec.ofBool d ++ BitVec.ofBool c ++ BitVec.ofBool b ++ BitVec.ofBool a).setWidth 8
      = BitVec.ofNat 8 (a.toNat + 2 * b.toNat + 4 * c.toNat + 8 * d.toNat) := by decide
  exact key _ _ _ _

theorem packageMarkPresence_eq (m : PackageMark) : packageMarkPresence m =
    BitVec.ofNat 8 (m.extent.isSome.toNat + 2 * m.row.isSome.toNat + 4 * m.junction.isSome.toNat) := by
  have key : ∀ a b c : Bool, (BitVec.ofBool c ++ BitVec.ofBool b ++ BitVec.ofBool a).setWidth 8
      = BitVec.ofNat 8 (a.toNat + 2 * b.toNat + 4 * c.toNat) := by decide
  exact key _ _ _

theorem PackageFlags.bits_eq (f : PackageFlags) : f.bits = BitVec.ofNat 8 (f.short.toNat + 2 * f.endCut.toNat
    + 4 * f.overlength.toNat + 8 * f.spliceExcess.toNat + 16 * f.marksIncomplete.toNat + 32 * f.marksTruncated.toNat
    + 64 * f.trimLimited.toNat + 128 * f.rowsSkipped.toNat) := by
  have key : ∀ a b c d e f g h : Bool, BitVec.ofBool h ++ BitVec.ofBool g ++ BitVec.ofBool f ++ BitVec.ofBool e
      ++ BitVec.ofBool d ++ BitVec.ofBool c ++ BitVec.ofBool b ++ BitVec.ofBool a
      = BitVec.ofNat 8 (a.toNat + 2 * b.toNat + 4 * c.toNat + 8 * d.toNat + 16 * e.toNat + 32 * f.toNat + 64 * g.toNat
        + 128 * h.toNat) := by decide
  exact key _ _ _ _ _ _ _ _

theorem senseCode_eq (v : Option Sense) : senseCode v =
    match v with
    | none => 0
    | some .high => 1
    | some .low => 2
    | some .both => 3 := by
  rcases v with _ | v
  · rfl
  · cases v <;> rfl

theorem encMark_eq (m : Mark) : encMark m = m.kind.code :: BitVec.ofNat 8 m.lane.val ::
    BitVec.ofNat 8 (m.extent.isSome.toNat + 2 * m.sense.isSome.toNat + 4 * m.row.isSome.toNat + 8 * m.junction.isSome.toNat) ::
    (beBytes 6 m.position ++ (beBytes 6 (m.extent.getD 0)
      ++ senseCode m.sense :: (beBytes 2 (m.row.getD 0) ++ [BitVec.ofNat 8 (m.junction.getD 0)]))) := by
  rw [encMark, markPresence_eq, encNat_one]
  simp only [encUm_eq, encNat, List.append_assoc, List.cons_append, List.nil_append]

theorem encPackageMark_eq (m : PackageMark) : encPackageMark m = m.kind.code :: BitVec.ofNat 8 m.lane.val ::
    BitVec.ofNat 8 (m.extent.isSome.toNat + 2 * m.row.isSome.toNat + 4 * m.junction.isSome.toNat) ::
    (beBytes 4 m.offset ++ (beBytes 4 (m.extent.getD 0)
      ++ (beBytes 2 (m.row.getD 0) ++ [BitVec.ofNat 8 (m.junction.getD 0)]))) := by
  rw [encPackageMark, packageMarkPresence_eq, encNat_one]
  simp only [encNat, List.append_assoc, List.cons_append, List.nil_append]

theorem freeEntries_eq (s : State) : s.freeEntries = 96 - (allLanes.map fun m => (s.markList m).length).sum := rfl

/-- Settles O20: the summary and the marks, and the head package, in their layouts (R93, R156, R178, R179). -/
theorem readMarksAndReadPackageReportTheStore : Obligations.ReadMarksAndReadPackageReportTheStore := by
  refine ⟨fun s p b first hs hh => ⟨fun h => ?_, fun l hl hfirst => ?_⟩, fun s p hs hh hrole => ?_⟩
  · rw [exec_readMarks_ready b first hs hh, readMarks_range h]; rfl
  · subst hl
    rw [exec_readMarks_ready _ first hs hh]
    have hread : readMarks [BitVec.ofNat 8 l.val, first] s = readOk ([BitVec.ofNat 8 l.val] ++ encUm (s.lane l).coilStart
        ++ encNat 1 (s.markList l).length ++ encNat 1 s.freeEntries ++ encFlag (s.lane l).marksLost
        ++ encNat 1 ((s.markList l).length - first.toNat) ++ ((s.markList l).drop first.toNat).flatMap encMark) s := by
      simp [readMarks, byteAt, show ¬ 96 ≤ first.toNat by omega]
    rw [hread]
    refine streamed_congr ?_ s
    show [BitVec.ofNat 8 l.val] ++ _ ++ _ ++ _ ++ _ ++ _ ++ _ = _
    simp only [funext encMark_eq, encNat_one, encFlag_eq, encUm_eq, freeEntries_eq, funext senseCode_eq,
      List.append_assoc, List.cons_append, List.nil_append]
    rfl
  · have hpermits : Command.readPackage.permits (s.port p).role = true := by
      obtain h | h := hrole <;> rw [h] <;> rfl
    refine ⟨fun h => ?_, fun x rest h => ?_⟩
    · rw [exec_readPackage_ready hs hh hpermits]
      simp only [readPackage, h]
      rfl
    · have hread : readPackage s = readOk (encNat 1 s.cuts.queue.length ++ encPackage x) s := by
        simp only [readPackage, h]
      rw [exec_readPackage_ready hs hh hpermits, hread]
      refine streamed_congr ?_ s
      show encNat 1 s.cuts.queue.length ++ encPackage x = _
      simp only [encPackage, funext encPackageMark_eq, PackageFlags.bits_eq, encFin_lane, encFin_slot, encNat_one,
        List.append_assoc, List.cons_append, List.nil_append]
      rfl

/-! ### READ_ROW and READ_CUTS -/

theorem encOpt_six_ite (c : Prop) [Decidable c] (v : Nat) :
    encOpt 6 (if c then some v else none) = if c then beBytes 6 v else List.replicate 6 0xFF := by
  split <;> rfl

theorem panelOpen_eq_true_iff (s : State) : s.panelOpen = true ↔ s.panel.state ≠ .none := by
  simp [State.panelOpen]

/-- The panel's lanes and the reason of a cut, each a byte. -/
def CutWhat.detailBytes (w : CutWhat) : List Byte :=
  match w with
  | .coil _ .normal => [0x00, 0x00]
  | .coil _ .short => [0x00, 0x01]
  | .coil _ .endCut => [0x00, 0x02]
  | .panel ls => [ls, 0xFF]

theorem encEntry_eq (e : CutEntry) : encEntry e =
    encWhatLane e.what ++ (e.what.detailBytes ++ (beBytes 6 e.duePos ++ [e.state.code, if e.late then 1 else 0])) := by
  have hdetail : [e.what.panelLanes, e.what.reasonCode] = e.what.detailBytes := by
    cases e.what with
    | coil l r => cases r <;> rfl
    | panel ls => rfl
  rw [encEntry, hdetail, encFlag_eq]
  simp only [encUm_eq, List.append_assoc, List.cons_append, List.nil_append]

theorem encPlan_eq (x : CoilPlan) : encPlan x = x.state.code :: (beBytes 6 x.planPos ++ [x.reason.code]) := by
  simp only [encPlan, encUm_eq, List.cons_append, List.nil_append]

/-- Settles O21: the panel record with its rows, and the cut unit with every plan, in their order (R136, R158). -/
theorem readRowAndReadCutsReportTheSchedule : Obligations.ReadRowAndReadCutsReportTheSchedule := by
  intro s p
  refine ⟨fun hready => ?_, fun hready => ?_⟩
  · intro q r
    rw [exec_readRow_ready hready]
    refine streamed_congr ?_ s
    have htail : encOpt 6 (if s.panelOpen then some (tailEnd s) else none)
        = if s.panel.state = .none then List.replicate 6 0xFF else beBytes 6 (tailEnd s) := by
      rw [encOpt_six_ite]
      by_cases h : s.panel.state = .none <;> simp [panelOpen_eq_true_iff, h]
    have hrow : encRow = fun x => beBytes 2 x.row ++ encJunctions x.expected :: (beBytes 6 x.dueDraw
        ++ (beBytes 6 x.timeoutDraw ++ x.captured.flatMap (beBytes 6))) := by
      funext x
      simp only [encRow, encUm, encNat, List.append_assoc, List.cons_append, List.nil_append]
      rfl
    simp only [readRow, readOk, encOpt_one, encOpt_six_ite, htail, hrow, encNat_one, encFlag_eq, encUm_eq,
      List.append_assoc, List.cons_append, List.nil_append]
    rfl
  · intro u name
    rw [exec_readCuts_ready hready]
    refine streamed_congr ?_ s
    simp only [readCuts, readOk, funext encEntry_eq, encPlan_eq, encNat_one, List.append_assoc,
      List.cons_append, List.nil_append]
    rfl

/-! ### READ_LINE and READ_CAL -/

theorem slotsInUse_getLsbD (s : State) (i : Fin 8) :
    (slotsInUse s).getLsbD i.val = true ↔ ∃ h : i.val < 4, InUse s ⟨i.val, h⟩ := by
  have key : ∀ (a b c d : Bool) (i : Fin 8),
      ((BitVec.ofBool d ++ BitVec.ofBool c ++ BitVec.ofBool b ++ BitVec.ofBool a).setWidth 8 : Byte).getLsbD i.val
        = if h : i.val < 4 then ![a, b, c, d] ⟨i.val, h⟩ else false := by decide
  rw [slotsInUse, key]
  by_cases h : i.val < 4
  · rw [dif_pos h, exists_prop_of_true h, ← slotInUse_iff]
    generalize (⟨i.val, h⟩ : Fin 4) = j
    fin_cases j <;> rfl
  · simp [h]

theorem StopUnit.bits_toNat (u : StopUnit) :
    u.bits.toNat = u.rowOverrun.toNat + 2 * u.cutLate.toNat + 4 * u.feed.toNat + 8 * u.laneFault.toNat := by
  have key : ∀ a b c d : Bool,
      ((BitVec.ofBool d ++ BitVec.ofBool c ++ BitVec.ofBool b ++ BitVec.ofBool a).setWidth 8 : Byte).toNat
        = a.toNat + 2 * b.toNat + 4 * c.toNat + 8 * d.toNat := by decide
  exact key _ _ _ _

/-- A signed count that four bytes hold, in two's complement (R175). -/
theorem encCount_some {i : Int} (h : -2147483648 ≤ i ∧ i ≤ 2147483647) :
    encCount (some i) = beBytes 4 (if i < 0 then i + 4294967296 else i).toNat := by
  simp only [encCount, h, and_self, if_true, BitVec.toNat_ofInt]
  congr 1
  split_ifs <;> omega

/-- A signed count as it is sent, where four bytes hold it. -/
def countBytes (v : Option Int) : List Byte :=
  match v with
  | some i => beBytes 4 (if i < 0 then i + 4294967296 else i).toNat
  | none => [0x80, 0x00, 0x00, 0x00]

theorem encCount_eq {v : Option Int} (h : ∀ i, v = some i → -2147483648 ≤ i ∧ i ≤ 2147483647) :
    encCount v = countBytes v := by
  cases v with
  | none => rfl
  | some i => exact encCount_some (h i rfl)

theorem calResultCode_eq (v : Option CalResult) : calResultCode v =
    match v with
    | none => 0xFF
    | some .pass => 1
    | some .fail => 2
    | some .aborted => 3 := by
  rcases v with _ | v
  · rfl
  · cases v <;> rfl

theorem calCauseCode_eq (v : Option CalCause) : calCauseCode v =
    match v with
    | none => 0xFF
    | some .noCount => 1
    | some .range => 2
    | some .tolerance => 3 := by
  rcases v with _ | v
  · rfl
  · cases v <;> rfl

theorem readCal_range {b : Byte} (h : 10 ≤ b.toNat) (s : State) : readCal [b] s = readRefused .range s := by
  simp [readCal, byteAt, posNo_none h]

theorem readCal_ofNat (k : PosNo) (s : State) :
    readCal [BitVec.ofNat 8 k.val] s = readOk (encPosition (s.position k) ++ encCal (s.cal k)) s := by
  simp [readCal, byteAt]

/-- Settles O22: the line-level records, and the position with its calibration record, in their order (R52, R171). -/
theorem readLineAndReadCalReport : Obligations.ReadLineAndReadCalReport := by
  refine ⟨?line, fun s p b hready => ⟨fun h => ?_, ?cal⟩⟩
  case line =>
    intro s p hs hh setting
    refine ⟨s.stops.bits, slotsInUse s, (exec_readLine_ready hs hh).trans (streamed_congr ?_ s), slotsInUse_getLsbD s,
      StopUnit.bits_toNat s.stops⟩
    simp only [readLine, readOk, encFin_slot, encNat_one, ofNat_mod, encFlag_eq, encUm_eq, List.append_assoc,
      List.cons_append, List.nil_append]
    rfl
  case cal =>
    intro k hk x c small count factor small8 hrun hA hB
    subst hk
    refine (exec_readCal_ready _ hready).trans ?_
    rw [readCal_ofNat]
    refine streamed_congr ?_ s
    show encPosition x ++ encCal c = _
    simp only [encPosition, encCal, encFin_lane, encNat_one, encOpt_one, encFlag_eq, calResultCode_eq, calCauseCode_eq,
      encCount_eq (v := some c.nRun) (by rintro i ⟨⟩; exact hrun), encCount_eq hA, encCount_eq hB, List.append_assoc,
      List.cons_append, List.nil_append]
    rfl
  · rw [exec_readCal_ready b hready, readCal_range h]; rfl

end Sys2Proof.Machine
end


section
/-! PROOFS. Notices over an operation, and what an operation of one lane leaves: the other lanes and their marks, the
positions, the line, the panel, the row list and everything that `State.fixed` lists; the calibration records change
by an abort on the lane's position at most. -/

namespace Sys2Proof.Machine

variable {s t u : State}

/-! ### Notices -/

/-- Every notice set of `t` holds what it held in `s`. -/
def Heard (s t : State) : Prop :=
  ∀ q k, ((s.port q).notices.has k = true → (t.port q).notices.has k = true) ∧
    ∀ l, laneIn ((s.port q).notices.lanesFor k) l = true → laneIn ((t.port q).notices.lanesFor k) l = true

/-- A kind is present at every port. -/
def Raised (k : NoticeKind) (s : State) : Prop := ∀ q, (s.port q).notices.has k = true

/-- A kind is present with a lane at every port. -/
def Shown (k : NoticeKind) (l : LaneNo) (s : State) : Prop :=
  ∀ q, (s.port q).notices.has k = true ∧ laneIn ((s.port q).notices.lanesFor k) l = true

theorem Heard.refl (s : State) : Heard s s := fun _ _ => ⟨id, fun _ => id⟩

theorem Heard.trans (h : Heard s t) (h' : Heard t u) : Heard s u :=
  fun q k => ⟨fun hk => (h' q k).1 ((h q k).1 hk), fun l hl => (h' q k).2 l ((h q k).2 l hl)⟩

theorem Heard.of_ports (h : t.ports = s.ports) : Heard s t := fun q k => by
  have hq : t.port q = s.port q := by rw [State.port, State.port, h]
  rw [hq]; exact ⟨id, fun _ => id⟩

theorem Shown.raised {k : NoticeKind} {l : LaneNo} (h : Shown k l s) : Raised k s := fun q => (h q).1

theorem Raised.heard {k : NoticeKind} (h : Raised k s) (ht : Heard s t) : Raised k t := fun q => (ht q k).1 (h q)

theorem Shown.heard {k : NoticeKind} {l : LaneNo} (h : Shown k l s) (ht : Heard s t) : Shown k l t :=
  fun q => ⟨(ht q k).1 (h q).1, (ht q k).2 l (h q).2⟩

@[simp] theorem laneIn_or (a b : LaneSet) (l : LaneNo) : laneIn (a ||| b) l = (laneIn a l || laneIn b l) := by
  simp [laneIn]

theorem heard_raise (k : NoticeKind) (ls : LaneSet) (s : State) : Heard s (State.raise k ls s) := fun q j => by
  simp only [State.raise_port, Port.notify, NoticeSet.has_add, NoticeSet.lanesFor_add]
  refine ⟨fun h => by simp [h], fun l h => ?_⟩
  split
  · simp [h]
  · exact h

theorem raised_raise (k : NoticeKind) (ls : LaneSet) (s : State) : Raised k (State.raise k ls s) := fun q => by
  simp [Port.notify, NoticeSet.has_add]

theorem shown_raise {k : NoticeKind} {ls : LaneSet} {l : LaneNo} (h : laneIn ls l = true) (s : State) :
    Shown k l (State.raise k ls s) := fun q => ⟨raised_raise k ls s q, by
  simp [Port.notify, NoticeSet.lanesFor_add, h]⟩

theorem shown_raise_self (k : NoticeKind) (l : LaneNo) (s : State) : Shown k l (State.raise k (laneBit l) s) :=
  shown_raise (by simp) s

theorem heard_requestStop (r : StopReason) (ls : LaneSet) (s : State) : Heard s (s.requestStop r ls) :=
  (Heard.of_ports (s := s) (t := { s with stops := s.stops.add r ls }) rfl).trans (heard_raise _ _ _)

theorem shown_requestStop {ls : LaneSet} {l : LaneNo} (h : laneIn ls l = true) (r : StopReason) (s : State) :
    Shown .stop l (s.requestStop r ls) := shown_raise h _

theorem heard_finishCal (k : PosNo) (r : CalResult) (cause : Option CalCause) (s : State) :
    Heard s (finishCal k r cause s) := (Heard.of_ports rfl).trans (heard_raise _ _ _)

theorem heard_setLaneState (l : LaneNo) (st : LaneState) (s : State) : Heard s (setLaneState l st s) :=
  (Heard.of_ports rfl).trans (heard_raise _ _ _)

theorem shown_setLaneState (l : LaneNo) (st : LaneState) (s : State) : Shown .laneState l (setLaneState l st s) :=
  shown_raise_self _ _ _

/-! ### The calibration of a lane that leaves its state -/

/-- A calibration record after an abort (R51): DONE as ABORTED where it was running. -/
def CalRecord.aborted (c : CalRecord) : CalRecord :=
  if c.running then { c with state := .done, result := some .aborted, cause := none } else c

theorem CalRecord.aborted_nRun (c : CalRecord) : c.aborted.nRun = c.nRun := by
  unfold CalRecord.aborted; split <;> rfl

theorem CalRecord.aborted_aborted (c : CalRecord) : c.aborted.aborted = c.aborted := by
  by_cases h : c.running = true
  · have hdone : c.aborted.running = false := by rw [CalRecord.aborted, if_pos h]; rfl
    exact if_neg (by simp [hdone])
  · have hsame : c.aborted = c := if_neg h
    rw [hsame, hsame]

/-- Aborting a lane's calibration touches the record of its position only (R51). -/
theorem abortCal_cal (l : LaneNo) (s : State) (k : PosNo) :
    (abortCal l s).cal k = if (s.lane l).position = some k then (s.cal k).aborted else s.cal k := by
  unfold abortCal
  split
  · next h => simp [h]
  · next j h =>
    simp only [h, Option.some.injEq]
    by_cases hk : k = j
    · subst hk
      cases hr : (s.cal k).running <;> simp [CalRecord.aborted, hr, finishCal]
    · cases hr : (s.cal j).running <;> simp [finishCal, State.modCal_cal, hk, Ne.symm hk]

theorem abortCal_frame (l : LaneNo) (s : State) : { abortCal l s with cals := s.cals, ports := s.ports } = s := by
  unfold abortCal
  split
  · rfl
  · split <;> rfl

theorem heard_abortCal (l : LaneNo) (s : State) : Heard s (abortCal l s) := by
  unfold abortCal
  split
  · exact Heard.refl s
  · split
    · exact heard_finishCal _ _ _ _
    · exact Heard.refl s

/-- The lanes of a record are shown with CAL when its calibration is aborted (R49, R51). -/
theorem abortCal_raised {l : LaneNo} {k : PosNo} (hk : (s.lane l).position = some k) (hr : (s.cal k).running = true) :
    Raised .cal (abortCal l s) ∧ ∀ m, (s.cal k).lane = some m → Shown .cal m (abortCal l s) := by
  have habort : abortCal l s = finishCal k .aborted none s := by simp [abortCal, hk, hr]
  rw [habort]
  exact ⟨raised_raise _ _ _, fun m hm => shown_raise (by simp [CalRecord.laneSet, hm]) _⟩

/-! ### What an operation of a lane leaves -/

/-- The records that no operation of a lane touches, beside those of `State.fixed`. -/
def State.around (s : State) : Vector Position 10 × Line × Panel × List RowRecord :=
  (s.positions, s.line, s.panel, s.rows)

/-- What the operations of a lane's state, window, splice, marks and cuts leave of its record. -/
def Lane.berth (x : Lane) : Option PosNo × Nat × Nat × SlotNo × Option SlotNo :=
  (x.position, x.tally, x.coilStart, x.slot, x.pendingSlot)

/-- What an operation of lane `l` leaves: every other lane with its marks, the records around the lanes, the lane's
position, tally and slot, and every calibration but one of its own position, which may be aborted. -/
structure Local (l : LaneNo) (s t : State) : Prop where
  lane : ∀ m, m ≠ l → t.lane m = s.lane m
  markList : ∀ m, m ≠ l → t.markList m = s.markList m
  around : t.around = s.around
  fixed : t.fixed = s.fixed
  berth : (t.lane l).berth = (s.lane l).berth
  cal : ∀ k, t.cal k = s.cal k ∨ ((s.lane l).position = some k ∧ t.cal k = (s.cal k).aborted)
  heard : Heard s t

namespace Local

variable {l : LaneNo}

protected theorem refl (l : LaneNo) (s : State) : Local l s s :=
  ⟨fun _ _ => rfl, fun _ _ => rfl, rfl, rfl, rfl, fun _ => .inl rfl, Heard.refl s⟩

theorem positions (h : Local l s t) : t.positions = s.positions := congrArg (·.1) h.around
theorem line (h : Local l s t) : t.line = s.line := congrArg (·.2.1) h.around
theorem panel (h : Local l s t) : t.panel = s.panel := congrArg (·.2.2.1) h.around
theorem rows (h : Local l s t) : t.rows = s.rows := congrArg (·.2.2.2) h.around
theorem recipes (h : Local l s t) : t.recipes = s.recipes := recipes_of_fixed h.fixed
theorem recipe (h : Local l s t) (i : SlotNo) : t.recipe i = s.recipe i := by rw [State.recipe, h.recipes, State.recipe]
theorem pos (h : Local l s t) (k : PosNo) : t.position k = s.position k := by
  rw [State.position, h.positions, State.position]
theorem position (h : Local l s t) : (t.lane l).position = (s.lane l).position := congrArg (·.1) h.berth
theorem tally (h : Local l s t) : (t.lane l).tally = (s.lane l).tally := congrArg (·.2.1) h.berth
theorem coilStart (h : Local l s t) : (t.lane l).coilStart = (s.lane l).coilStart := congrArg (·.2.2.1) h.berth
theorem slot (h : Local l s t) : (t.lane l).slot = (s.lane l).slot := congrArg (·.2.2.2.1) h.berth

theorem activeRecipe (h : Local l s t) : t.activeRecipe l = s.activeRecipe l := by
  rw [State.activeRecipe, h.slot, h.recipe, State.activeRecipe]

theorem um (h : Local l s t) : (t.lane l).um = (s.lane l).um := by rw [Lane.um, h.tally, Lane.um]

theorem cutterCoord (h : Local l s t) : t.cutterCoord l = s.cutterCoord l := by
  rw [State.cutterCoord, h.um, h.line, State.cutterCoord]

theorem cal_of_ne (h : Local l s t) {k : PosNo} (hk : (s.lane l).position ≠ some k) : t.cal k = s.cal k :=
  (h.cal k).resolve_right fun hc => hk hc.1

theorem nRun (h : Local l s t) (k : PosNo) : (t.cal k).nRun = (s.cal k).nRun := by
  obtain hk | ⟨-, hk⟩ := h.cal k
  · rw [hk]
  · rw [hk, CalRecord.aborted_nRun]

theorem trans (h : Local l s t) (h' : Local l t u) : Local l s u where
  lane m hm := (h'.lane m hm).trans (h.lane m hm)
  markList m hm := (h'.markList m hm).trans (h.markList m hm)
  around := h'.around.trans h.around
  fixed := h'.fixed.trans h.fixed
  berth := h'.berth.trans h.berth
  cal k := by
    obtain h1 | ⟨hp, h1⟩ := h.cal k <;> obtain h2 | ⟨hp', h2⟩ := h'.cal k
    · exact .inl (h2.trans h1)
    · exact .inr ⟨h.position ▸ hp', by rw [h2, h1]⟩
    · exact .inr ⟨hp, h2.trans h1⟩
    · exact .inr ⟨hp, by rw [h2, h1, CalRecord.aborted_aborted]⟩
  heard := h.heard.trans h'.heard

/-! One lemma per operation: it may follow what has left the rest so far. -/

theorem modLane (h : Local l s t) (f : Lane → Lane) (hf : ∀ x, (f x).berth = x.berth) : Local l s (t.modLane l f) :=
  h.trans ⟨fun m hm => by simp [State.modLane_lane, hm], fun _ _ => rfl, rfl, rfl, by simp [hf], fun _ => .inl rfl,
    Heard.of_ports rfl⟩

theorem raise (h : Local l s t) (k : NoticeKind) (ls : LaneSet) : Local l s (State.raise k ls t) :=
  h.trans ⟨fun _ _ => rfl, fun _ _ => rfl, rfl, raise_fixed t k ls, rfl, fun _ => .inl rfl, heard_raise k ls t⟩

theorem requestStop (h : Local l s t) (r : StopReason) (ls : LaneSet) : Local l s (t.requestStop r ls) :=
  h.trans ⟨fun _ _ => rfl, fun _ _ => rfl, rfl, requestStop_fixed t r ls, rfl, fun _ => .inl rfl,
    heard_requestStop r ls t⟩

theorem modCuts (h : Local l s t) (f : CutUnit → CutUnit) : Local l s (t.modCuts f) :=
  h.trans ⟨fun _ _ => rfl, fun _ _ => rfl, rfl, rfl, rfl, fun _ => .inl rfl, Heard.of_ports rfl⟩

theorem useFree (h : Local l s t) (n : Nat) : Local l s (t.useFree n) :=
  h.trans ⟨fun _ _ => rfl, fun _ _ => rfl, rfl, rfl, rfl, fun _ => .inl rfl, Heard.of_ports rfl⟩

theorem setMarkList (h : Local l s t) (ms : List Mark) : Local l s (t.setMarkList l ms) :=
  h.trans ⟨fun _ _ => rfl, fun m hm => by simp [State.setMarkList_markList, hm], rfl, rfl, rfl, fun _ => .inl rfl,
    Heard.of_ports rfl⟩

theorem handMark (h : Local l s t) (m : Mark) (hm : m.lane = l) : Local l s (Machine.handMark m t) := by
  subst hm
  unfold Machine.handMark
  split
  · exact h.modLane _ fun _ => rfl
  · exact (h.setMarkList _).trans ⟨fun _ _ => rfl, fun _ _ => rfl, rfl, rfl, rfl, fun _ => .inl rfl, Heard.of_ports rfl⟩

theorem setLaneState (h : Local l s t) (st : LaneState) : Local l s (Machine.setLaneState l st t) :=
  (h.modLane (fun x => { x with state := st }) fun _ => rfl).raise _ _

theorem abortCal (h : Local l s t) : Local l s (Machine.abortCal l t) := by
  refine h.trans ⟨fun m _ => abortCal_lane l m t, fun m _ => ?_, ?_, abortCal_fixed t l, ?_, fun k => ?_, heard_abortCal l t⟩
  · exact (congrArg (fun u : State => u.markList m) (abortCal_frame l t) :)
  · exact (congrArg State.around (abortCal_frame l t) :)
  · rw [abortCal_lane]
  · rw [abortCal_cal]
    split
    · next hk => exact .inr ⟨hk, rfl⟩
    · exact .inl rfl

end Local

end Sys2Proof.Machine
end


section
/-! PROOFS. `Local` for every operation of a lane: the marks, the fault entry, the window end, threading, splices, the
coil's cut and the tests that follow a count. -/

namespace Sys2Proof.Machine

variable {s t : State} {l : LaneNo}

theorem pickOrder_perm (tick : Nat) (ms : List Mark) : (pickOrder tick ms.length ms).Perm ms := by
  generalize hn : ms.length = n
  induction n generalizing ms with
  | zero => rw [List.length_eq_zero_iff.1 hn]; exact .refl _
  | succ n ih =>
    have hlt : Config.freePick (tick + n) % ms.length < ms.length := Nat.mod_lt _ (by omega)
    simp only [pickOrder, List.getElem?_eq_getElem hlt]
    have hlen : (ms.eraseIdx (Config.freePick (tick + n) % ms.length)).length = n := by
      rw [List.length_eraseIdx_of_lt hlt]; omega
    exact ((ih _ hlen).cons _).trans (List.getElem_cons_eraseIdx_perm hlt)

/-- The state of a window end after its steps 1 to 6: twist, zone, slip and counters (R57). -/
def windowMeasured (l : LaneNo) (tpm lw : Nat) (b : BandResult) (slip : Bool) (s : State) : State :=
  (slipStep l slip (zoneStep l lw b.sense (s.modLane l fun y => { y with lastTpm := some tpm }))).modLane l
    fun y => { y with counters := y.counters.windowEnded b slip }

/-- Steps 7 and 8 of a window end (R57). -/
def windowClosed (l : LaneNo) (b : BandResult) (slip : Bool) (s : State) : State :=
  if 3 ≤ (s.lane l).slipRun then faultEntry l .wheelSlip true s else reopenWindow l (periodStep l b slip s)

/-- The length of a lane's window (R59). -/
def windowLength (x : Lane) : Nat := x.um - x.windowStart

/-- The twist of a lane's window (R59). -/
def windowTwist (x : Lane) (q : Position) : Nat := windowTpm x.windowPulses q.np (windowLength x)

/-- A lane's window is a slip window (R62). -/
def windowSlips (x : Lane) (q : Position) (r : Recipe) : Bool :=
  isSlip (capstanLength x.capstanPulses q.cRef q.pc) (windowLength x) r.slipPm

/-- A window end in two halves: what it measures, and what follows from it (R57). -/
theorem windowEndAt_eq (l : LaneNo) (k : PosNo) (s : State) :
    windowEndAt l k s =
      windowClosed l (bandTest (s.activeRecipe l) (windowTwist (s.lane l) (s.position k)))
        (windowSlips (s.lane l) (s.position k) (s.activeRecipe l))
        (windowMeasured l (windowTwist (s.lane l) (s.position k)) (windowLength (s.lane l))
          (bandTest (s.activeRecipe l) (windowTwist (s.lane l) (s.position k)))
          (windowSlips (s.lane l) (s.position k) (s.activeRecipe l)) s) := rfl

namespace Local

theorem foldl {α : Type} (h : Local l s t) (f : State → α → State) (xs : List α)
    (hf : ∀ x ∈ xs, ∀ u, Local l s u → Local l s (f u x)) : Local l s (xs.foldl f t) := by
  induction xs generalizing t with
  | nil => exact h
  | cons x xs ih =>
    exact ih (hf x List.mem_cons_self t h) fun y hy u hu => hf y (List.mem_cons_of_mem x hy) u hu

theorem handMarks (h : Local l s t) (ms : List Mark) (hms : ∀ m ∈ ms, m.lane = l) :
    Local l s (Machine.handMarks ms t) := by
  unfold Machine.handMarks
  split
  · exact h.foldl _ ms fun m hm u hu => hu.handMark m (hms m hm)
  · exact (h.useFree _).foldl _ _ fun m hm u hu => hu.handMark m (hms m ((pickOrder_perm _ ms).mem_iff.1 hm))

/-! ### The entry into FAULT -/

theorem closeSplice (h : Local l s t) : Local l s (Machine.closeSplice l t) := by
  unfold Machine.closeSplice
  split
  · exact (h.setMarkList _).modLane _ fun _ => rfl
  · exact h

theorem leaveForFault (h : Local l s t) (atEnd : Bool) : Local l s (Machine.leaveForFault l atEnd t) := by
  unfold Machine.leaveForFault
  split
  · exact h.modLane _ fun _ => by cases atEnd <;> rfl
  · exact h.closeSplice
  all_goals exact h

theorem faultEntry (h : Local l s t) (cause : FaultCause) (atEnd : Bool) :
    Local l s (Machine.faultEntry l cause atEnd t) := by
  have hfault := ((h.leaveForFault atEnd).abortCal.modLane (fun x => { x with faultCause := some cause })
    fun _ => rfl).setLaneState .fault
  unfold Machine.faultEntry
  dsimp only
  split
  · exact hfault.requestStop _ _
  · exact hfault

/-! ### The window end -/

theorem zoneStep (h : Local l s t) (lw : Nat) (sense : Option Sense) : Local l s (Machine.zoneStep l lw sense t) := by
  have hzone : ∀ sn, ∀ m ∈ newZone l (t.lane l) lw sn, m.lane = l := by
    intro sn m hm
    unfold newZone at hm
    dsimp only at hm
    split at hm
    · simp at hm
    · rw [List.mem_singleton.1 hm]
  unfold Machine.zoneStep
  split
  · exact h
  · next sn =>
    dsimp only
    split
    · split
      · exact h.setMarkList _
      · exact h.handMarks _ (hzone sn)
    · exact h.handMarks _ (hzone sn)

theorem slipStep (h : Local l s t) (slip : Bool) : Local l s (Machine.slipStep l slip t) := by
  unfold Machine.slipStep
  split
  · exact (h.handMarks _ fun m hm => by rw [List.mem_singleton.1 hm]; rfl).modLane _ fun _ => rfl
  · exact h.modLane _ fun _ => rfl

theorem periodDecision (h : Local l s t) : Local l s (Machine.periodDecision l t) := by
  have hclear := h.modLane Lane.clearPeriod fun _ => rfl
  unfold Machine.periodDecision
  dsimp only
  split
  · exact hclear.modLane _ fun _ => rfl
  · split
    · exact (hclear.modLane _ (by exact fun _ => rfl)).raise _ _
    · have hstrike := (hclear.modLane (fun y => { y with trimLimited := true, limitStrike := true })
        fun _ => rfl).raise .trim (laneBit l)
      split
      · exact hstrike.faultEntry _ _
      · exact hstrike

theorem periodStep (h : Local l s t) (b : BandResult) (slip : Bool) : Local l s (Machine.periodStep l b slip t) := by
  have hcount := h.modLane (countWindow (t.activeRecipe l) b slip) fun _ => rfl
  unfold Machine.periodStep
  dsimp only
  split
  · exact hcount.periodDecision
  · exact hcount

theorem reopenWindow (h : Local l s t) : Local l s (Machine.reopenWindow l t) := by
  unfold Machine.reopenWindow
  split
  · exact h.modLane _ fun _ => rfl
  · exact h

theorem windowMeasured (h : Local l s t) (tpm lw : Nat) (b : BandResult) (slip : Bool) :
    Local l s (Machine.windowMeasured l tpm lw b slip t) :=
  (((h.modLane (fun y => { y with lastTpm := some tpm }) fun _ => rfl).zoneStep lw b.sense).slipStep slip).modLane _
    fun _ => rfl

theorem windowClosed (h : Local l s t) (b : BandResult) (slip : Bool) :
    Local l s (Machine.windowClosed l b slip t) := by
  unfold Machine.windowClosed
  split
  · exact h.faultEntry _ _
  · exact (h.periodStep b slip).reopenWindow

theorem windowEndAt (h : Local l s t) (k : PosNo) : Local l s (Machine.windowEndAt l k t) := by
  rw [windowEndAt_eq]
  exact (h.windowMeasured _ _ _ _).windowClosed _ _

theorem windowEnd (h : Local l s t) : Local l s (Machine.windowEnd l t) := by
  unfold Machine.windowEnd
  split
  · exact h.windowEndAt _
  · exact h

theorem windowEndIfMet (h : Local l s t) : Local l s (Machine.windowEndIfMet l t) := by
  unfold Machine.windowEndIfMet
  split
  · exact h.windowEnd
  · exact h

theorem spliceOverlongIfMet (h : Local l s t) : Local l s (Machine.spliceOverlongIfMet l t) := by
  unfold Machine.spliceOverlongIfMet
  split
  · exact h.faultEntry _ _
  · exact h

/-! ### Due cuts -/

theorem requestIfLate (h : Local l s t) (late : Bool) (w : CutWhat) : Local l s (Machine.requestIfLate late w t) := by
  unfold Machine.requestIfLate
  split
  · exact h.requestStop _ _
  · exact h

theorem joinCut (h : Local l s t) (w : CutWhat) (due : Nat) (late : Bool) :
    Local l s (Machine.joinCut w due late t) := by
  unfold Machine.joinCut
  split
  · exact h.modCuts _
  · exact (h.modCuts _).raise _ _

theorem cutFallsDue (h : Local l s t) (w : CutWhat) (due : Nat) : Local l s (Machine.cutFallsDue w due t) := by
  unfold Machine.cutFallsDue
  dsimp only
  split
  · exact (h.modCuts _).requestIfLate _ _
  · exact (h.joinCut _ _ _).requestIfLate _ _

theorem retestLate (h : Local l s t) (sel : CutWhat → Bool) : Local l s (Machine.retestLate sel t) :=
  (h.modCuts _).foldl _ _ fun _ _ _ hu => hu.requestStop _ _

theorem coilCutDue (h : Local l s t) : Local l s (Machine.coilCutDue l t) :=
  (h.modLane (fun x => { x with plan := { x.plan with state := .due } }) fun _ => rfl).cutFallsDue _ _

theorem coilCutDueIfMet (h : Local l s t) : Local l s (Machine.coilCutDueIfMet l t) := by
  unfold Machine.coilCutDueIfMet
  split
  · exact h.coilCutDue
  · exact h

theorem freshPlan (h : Local l s t) : Local l s (Machine.freshPlan l t) := h.modLane _ fun _ => rfl

theorem shortCoilTest (h : Local l s t) (pos : Nat) : Local l s (Machine.shortCoilTest l pos t) := by
  unfold Machine.shortCoilTest
  dsimp only
  split
  · exact (h.modLane _ (by exact fun _ => rfl)).coilCutDueIfMet
  · exact h

theorem endCutDue (h : Local l s t) : Local l s (Machine.endCutDue l t) := by
  unfold Machine.endCutDue
  split
  · have hplan := (h.modCuts fun u => { u with list := u.list.map (convertToEnd l) }).modLane
      (fun x => { x with plan := { x.plan with state := .none } }) fun _ => rfl
    unfold Machine.endCutConverts
    dsimp only
    split
    · exact ((hplan.raise _ _).modCuts _).requestIfLate _ _
    · exact (hplan.modCuts _).requestIfLate _ _
  · exact (h.modLane _ fun _ => by unfold endPlan; split <;> rfl).cutFallsDue _ _

/-! ### Threading, splices and stopping -/

theorem setStartTrim (h : Local l s t) : Local l s (Machine.setStartTrim l t) := by
  unfold Machine.setStartTrim
  dsimp only
  split
  · exact h
  · exact (h.modLane _ (by exact fun _ => rfl)).raise _ _

theorem threadingEnd (h : Local l s t) : Local l s (Machine.threadingEnd l t) := by
  have hrun := (h.setStartTrim.modLane Lane.restartWindow fun _ => rfl).setLaneState .run
  unfold Machine.threadingEnd
  dsimp only
  split
  · exact hrun.freshPlan.coilCutDueIfMet
  · exact hrun

theorem threadingEndIfMet (h : Local l s t) : Local l s (Machine.threadingEndIfMet l t) := by
  unfold Machine.threadingEndIfMet
  split
  · exact h.threadingEnd
  · exact h

theorem spliceBegin (h : Local l s t) : Local l s (Machine.spliceBegin l t) := by
  have hopen := ((((h.modLane Lane.discardWindow fun _ => rfl).abortCal.modLane (fun x =>
    { x with spliceStart := some (max (t.lane l).um (t.lane l).coilStart)
             counters := { x.counters with splices := countUp x.counters.splices } }) fun _ => rfl).handMark
    (spliceMark l (max (t.lane l).um (t.lane l).coilStart)) rfl).setLaneState .splicing)
  unfold Machine.spliceBegin
  dsimp only
  split
  · exact hopen.shortCoilTest _
  · exact hopen

theorem leaveForStop (h : Local l s t) : Local l s (Machine.leaveForStop l t) := by
  unfold Machine.leaveForStop
  split
  · exact h.modLane _ fun _ => rfl
  · exact h.closeSplice
  · exact h.modLane _ fun _ => rfl
  all_goals exact h

theorem stopLane (h : Local l s t) : Local l s (Machine.stopLane l t) :=
  (h.leaveForStop.abortCal.setLaneState .stopping).endCutDue

/-! ### The tests that follow a count -/

theorem laneWatchers (h : Local l s t) : Local l s (Machine.laneWatchers l t) :=
  h.threadingEndIfMet.windowEndIfMet.spliceOverlongIfMet.coilCutDueIfMet.retestLate _

theorem tallyLimit (h : Local l s t) : Local l s (Machine.tallyLimit l t) := by
  unfold Machine.tallyLimit
  split
  · exact h.faultEntry _ _
  · exact h.faultEntry _ _
  · split
    · exact h
    · exact (h.modLane _ (by exact fun _ => rfl)).raise _ _
  all_goals exact h

end Local

end Sys2Proof.Machine
end


section
/-! PROOFS. A mark handed to the store (05_the_mark_store.md R81 to R83, R86), and the calibration commands, pulses and
pass closes (03_wheel_calibration.md). -/

namespace Sys2Proof.Machine

variable {s : State}

/-! ### A mark handed to the store -/

/-- The record of a mark as the store keeps it: raised to coil_start, its extent reduced, numbered (R82, R86). -/
def keptMark (s : State) (m : Mark) : Mark :=
  { m with
    position := max (s.lane m.lane).coilStart m.position
    extent := m.extent.map (· - ((s.lane m.lane).coilStart - m.position))
    made := s.marks.nextMade }

theorem guardMark_eq (c : Nat) (m : Mark) :
    guardMark c m = { m with position := max c m.position, extent := m.extent.map (· - (c - m.position)) } := by
  unfold guardMark
  split
  · next h => rw [Nat.max_eq_left (Nat.le_of_lt h)]
  · next h =>
    have hzero : c - m.position = 0 := by omega
    have hmap : m.extent.map (· - 0) = m.extent := by cases m.extent <;> rfl
    rw [hzero, hmap, Nat.max_eq_right (by omega)]

theorem guardMark_numbered (s : State) (m : Mark) :
    { guardMark (s.lane m.lane).coilStart m with made := s.marks.nextMade } = keptMark s m := by
  rw [guardMark_eq]; rfl

/-- On a full pool the mark is lost (R83). -/
theorem handMark_full (m : Mark) (h : 96 ≤ s.marksHeld) :
    handMark m s = s.modLane m.lane fun x => { x with marksLost := true } := by
  obtain ⟨-, heq⟩ | ⟨hfree, -⟩ := handMark_cases m s
  · exact heq
  · omega

/-- With a free entry the mark joins its lane's list (R81, R82, R86). -/
theorem handMark_stored (m : Mark) (h : s.marksHeld < 96) :
    handMark m s =
      { s.setMarkList m.lane (insertMark (keptMark s m) (s.markList m.lane)) with
        marks := { (s.setMarkList m.lane (insertMark (keptMark s m) (s.markList m.lane))).marks with
          nextMade := s.marks.nextMade + 1 } } := by
  obtain ⟨hfull, -⟩ | ⟨-, heq⟩ := handMark_cases m s
  · omega
  · rw [heq, guardMark_numbered]; rfl

theorem handMark_stored_markList (m : Mark) (h : s.marksHeld < 96) (l : LaneNo) :
    (handMark m s).markList l =
      if l = m.lane then insertMark (keptMark s m) (s.markList m.lane) else s.markList l := by
  rw [handMark_stored m h]
  exact s.setMarkList_markList m.lane l _

theorem handMark_stored_marksHeld (m : Mark) (h : s.marksHeld < 96) : (handMark m s).marksHeld = s.marksHeld + 1 := by
  have hlen := setMarkList_marksHeld s m.lane (insertMark (keptMark s m) (s.markList m.lane))
  rw [insertMark_length] at hlen
  have hsame : (handMark m s).marksHeld =
      (s.setMarkList m.lane (insertMark (keptMark s m) (s.markList m.lane))).marksHeld :=
    marksHeld_congr (by rw [handMark_stored m h])
  omega

theorem handMark_stored_nextMade (m : Mark) (h : s.marksHeld < 96) :
    (handMark m s).marks.nextMade = s.marks.nextMade + 1 := by rw [handMark_stored m h]

theorem handMark_stored_frame (m : Mark) (h : s.marksHeld < 96) : { handMark m s with marks := s.marks } = s := by
  rw [handMark_stored m h]; rfl

/-- Settles O43: by whether the pool has a free entry. -/
theorem handedMarkIsStoredOrLost : Obligations.HandedMarkIsStoredOrLost := by
  intro s m start kept
  refine ⟨handMark_full m, fun h => ⟨handMark_stored_marksHeld m h, ?place, fun l hl => ?others,
    handMark_stored_nextMade m h, handMark_stored_frame m h⟩⟩
  case place =>
    obtain ⟨front, back, hlist, hinsert, hfront, hback⟩ := insertMark_spec (keptMark s m) (s.markList m.lane)
    exact ⟨front, back, hlist, by rw [handMark_stored_markList m h, if_pos rfl, hinsert]; rfl, hfront, hback⟩
  case others => rw [handMark_stored_markList m h, if_neg hl]

/-! ### CALIBRATE -/

@[simp] theorem State.modCal_modCal (s : State) (k : PosNo) (f g : CalRecord → CalRecord) :
    (s.modCal k f).modCal k g = s.modCal k fun c => g (f c) := by
  simp [State.modCal]

theorem serveCalibrate_range {b n tol : Byte}
    (h : 10 ≤ b.toNat ∨ n.toNat < 1 ∨ 64 < n.toNat ∨ tol.toNat < 1 ∨ 50 < tol.toNat) (s : State) :
    serveCalibrate [b, n, tol] s = refuse .range s := by
  unfold serveCalibrate
  split
  · rfl
  · next k hk =>
    have hb : ¬ 10 ≤ b.toNat := fun hb => by simp [byteAt, posNo_none hb] at hk
    exact if_pos (h.resolve_left hb)

theorem serveCalibrate_ofNat (k : PosNo) {n tol : Byte} (hn : 1 ≤ n.toNat) (hn' : n.toNat ≤ 64) (ht : 1 ≤ tol.toNat)
    (ht' : tol.toNat ≤ 50) (s : State) :
    serveCalibrate [BitVec.ofNat 8 k.val, n, tol] s =
      if (s.cal k).running then refuse .state s
      else if mappedInRun s k then accept (s.modCal k fun _ => calStart (s.position k).mappedLane n.toNat tol.toNat)
      else refuse .state s := by
  have hbytes : byteAt [BitVec.ofNat 8 k.val, n, tol] 0 = BitVec.ofNat 8 k.val := rfl
  unfold serveCalibrate
  simp only [hbytes, posNo_ofNat]
  exact if_neg (show ¬ (n.toNat < 1 ∨ 64 < n.toNat ∨ tol.toNat < 1 ∨ 50 < tol.toNat) by omega)

theorem mappedInRun_iff (s : State) (k : PosNo) :
    mappedInRun s k = true ↔ ∃ l, (s.position k).mappedLane = some l ∧ (s.lane l).state = .run := by
  unfold mappedInRun
  split <;> simp_all

/-! ### Pulses -/

theorem atMappedLane_some {k : PosNo} {l : LaneNo} (h : (s.position k).mappedLane = some l)
    (f : LaneNo → State → State) : atMappedLane k f s = f l s := by
  rw [atMappedLane, h]

theorem positionFlyer_run {k : PosNo} {l : LaneNo} (hl : (s.position k).mappedLane = some l)
    (hr : (s.lane l).state = .run) :
    positionFlyer k s = s.setLane l { s.lane l with windowPulses := min 16777215 ((s.lane l).windowPulses + 1) } := by
  rw [positionFlyer, atMappedLane_some hl, flyerPulse, if_pos hr]; rfl

theorem positionFlyer_off {k : PosNo} (h : ∀ l, ¬ ((s.position k).mappedLane = some l ∧ (s.lane l).state = .run)) :
    positionFlyer k s = s := by
  cases hl : (s.position k).mappedLane with
  | none => rw [positionFlyer, atMappedLane, hl]
  | some l => rw [positionFlyer, atMappedLane_some hl, flyerPulse, if_neg fun hr => h l ⟨hl, hr⟩]

/-- A rising capstan edge at the open window of the mapped lane (R56). -/
theorem atMappedLane_capstanPulse (s : State) (k : PosNo) :
    atMappedLane k capstanPulse s =
      match (s.position k).mappedLane with
      | some l =>
        if (s.lane l).state = .run then
          s.setLane l { s.lane l with capstanPulses := min 16777215 ((s.lane l).capstanPulses + 1) }
        else s
      | none => s := by
  unfold atMappedLane
  split
  · next h => rw [h]
  · next l h => rw [h]; rfl

/-- Edges reach the record and the position of a calibration only. -/
theorem atMappedLane_capstanPulse_frame (s : State) (k : PosNo) :
    { atMappedLane k capstanPulse s with lanes := s.lanes } = s := by
  unfold atMappedLane
  split
  · rfl
  · unfold capstanPulse
    split <;> rfl

theorem passAMet_iff (s : State) (k : PosNo) : passAMet k s = true ↔
    (s.cal k).state = .passA ∧ (s.cal k).started = true ∧ (s.cal k).n.getD 0 * (s.position k).pc ≤ (s.cal k).edges := by
  simp only [passAMet, Bool.and_eq_true, beq_iff_eq, decide_eq_true_eq, and_assoc]
  rfl

theorem passBMet_iff (s : State) (k : PosNo) : passBMet k s = true ↔
    (s.cal k).state = .passB ∧ (s.cal k).n.getD 0 * (s.position k).pc + 1 ≤ (s.cal k).edges := by
  simp only [passBMet, Bool.and_eq_true, beq_iff_eq, decide_eq_true_eq]
  rfl

/-- A rising edge at a record that has not started its pass (R45). -/
theorem calRising_starts {k : PosNo} (h : (s.cal k).state = .passA) (hs : (s.cal k).started = false) :
    calRising k s = s.modCal k fun c => { c with started := true, edges := 0, nRun := 0 } := by
  simp [calRising, h, hs]

/-- A rising edge at a pass that has started counts and may close it (R45). -/
theorem calRising_counts {k : PosNo} (h : (s.cal k).state = .passA) (hs : (s.cal k).started = true) :
    calRising k s = passACloseIfMet k (s.modCal k fun c => { c with edges := c.edges + 1 }) := by
  simp [calRising, h, hs]

theorem calRising_other {k : PosNo} (h : (s.cal k).state ≠ .passA) : calRising k s = s := by
  simp [calRising, h]

theorem calFalling_counts {k : PosNo} (h : (s.cal k).state = .passB) :
    calFalling k s = passBCloseIfMet k (s.modCal k fun c => { c with edges := c.edges + 1 }) := by
  simp [calFalling, h]

theorem calFalling_other {k : PosNo} (h : (s.cal k).state ≠ .passB) : calFalling k s = s := by
  simp [calFalling, h]

/-- Settles O32: CALIBRATE by its checks, and each edge by the phase of the record (R43 to R47, R56). -/
theorem calibrationOpensAndCountsItsEdges : Obligations.CalibrationOpensAndCountsItsEdges := by
  refine ⟨fun s p b n tol hr => ⟨fun h => ?range, fun k hb hn hn' ht ht' => ⟨fun h => ?state, fun l hi hl hrun => ?opens⟩⟩,
    fun s k => ?pulses⟩
  case range => rw [exec_calibrate_ready b n tol hr, serveCalibrate_range h]; rfl
  case state =>
    subst hb
    rw [exec_calibrate_ready _ n tol hr, serveCalibrate_ofNat k hn hn' ht ht']
    by_cases hrun : (s.cal k).running = true
    · rw [if_pos hrun]; rfl
    · rw [CalRecord.running_iff, not_or] at hrun
      rw [if_neg (by rw [CalRecord.running_iff, not_or]; exact hrun),
        if_neg (by rw [mappedInRun_iff]; exact (h.resolve_left hrun.1).resolve_left hrun.2)]
      rfl
  case opens =>
    subst hb
    rw [exec_calibrate_ready _ n tol hr, serveCalibrate_ofNat k hn hn' ht ht',
      if_neg (by simp [(s.cal k).running_eq_false_iff.2 hi]), if_pos ((mappedInRun_iff s k).2 ⟨l, hl, hrun⟩), hl]
    rfl
  case pulses =>
    intro inRun edgesOfPass
    refine ⟨fun l hl => congrArg Host.Outcome.next (positionFlyer_run hl.1 hl.2),
      fun h => congrArg Host.Outcome.next (positionFlyer_off h), ?rising, fun h => congrArg Host.Outcome.next (calFalling_other h),
      fun h => ⟨fun hlt => ?counts, fun hle => ?closes⟩⟩
    case rising =>
      intro u
      have hu : atMappedLane k capstanPulse s = u := atMappedLane_capstanPulse s k
      have hframe := atMappedLane_capstanPulse_frame s k
      rw [hu] at hframe
      clear_value u
      have hcals : u.cals = s.cals := (congrArg State.cals hframe :)
      have hcal : u.cal k = s.cal k := by rw [State.cal, hcals, State.cal]
      have hpos : u.position k = s.position k := (congrArg (fun v : State => v.position k) hframe :)
      have hexec : exec (.capstanRisingEdge k) s = .next (calRising k u) := hu ▸ rfl
      have hmod : ∀ f, u.modCal k f = { u with cals := s.cals.set k (f (s.cal k)) } := fun f => by
        simp only [State.modCal, hcals]; rfl
      rw [hexec]
      refine ⟨fun h => congrArg Host.Outcome.next (calRising_other (hcal ▸ h)),
        fun h hs => congrArg Host.Outcome.next ((calRising_starts (hcal ▸ h) (hcal ▸ hs)).trans (hmod _)),
        fun h hs => ?_⟩
      rw [calRising_counts (hcal ▸ h) (hcal ▸ hs), hmod]
      refine ⟨fun hlt => congrArg Host.Outcome.next (if_neg ?_), fun _ => rfl⟩
      rw [passAMet_iff, ← hmod (fun c => { c with edges := c.edges + 1 }), State.modCal_cal_self, State.modCal_position, hcal, hpos]
      rintro ⟨-, -, hle⟩
      exact absurd hle (Nat.not_le.2 hlt)
    case counts =>
      have hexec : exec (.capstanFallingEdge k) s = .next (calFalling k s) := rfl
      rw [hexec, calFalling_counts h]
      refine congrArg Host.Outcome.next (if_neg ?_)
      rw [passBMet_iff, State.modCal_cal_self, State.modCal_position]
      rintro ⟨-, hle⟩
      exact absurd (Nat.succ_le_succ_iff.1 hle) (Nat.not_le.2 hlt)
    case closes =>
      have hexec : exec (.capstanFallingEdge k) s = .next (calFalling k s) := rfl
      rw [hexec, calFalling_counts h]
      rfl

/-! ### The close of a pass -/

/-- A finished calibration: DONE with its result and cause, and CAL (R49). -/
theorem finishCal_eq (k : PosNo) (r : CalResult) (cause : Option CalCause) (s : State) (f : CalRecord → CalRecord)
    (hf : ∀ c, (f c).lane = c.lane) :
    finishCal k r cause (s.modCal k f) = State.raise .cal (s.cal k).laneSet
      (s.modCal k fun c => { f c with state := .done, result := some r, cause := cause }) := by
  rw [finishCal, State.modCal_modCal, State.modCal_cal_self]
  simp only [CalRecord.laneSet, hf]

/-- Settles O33: each outcome of the two closes (R45 to R49). -/
theorem passesCloseByTheirCounts : Obligations.PassesCloseByTheirCounts := by
  intro s k n hn tol htol c x lanes factor withCal
  have hlanes : (s.cal k).laneSet = lanes := rfl
  refine ⟨fun hA hstart hedges => ?passA, fun kA hkA hB hedges => ?passB⟩
  case passA =>
    have hexec : exec (.passAClose k) s = .next (passAClose k s) :=
      congrArg Host.Outcome.next (if_pos ((passAMet_iff s k).2 ⟨hA, hstart, by rw [hn]; exact hedges⟩))
    have hfactor : passFactor ((s.cal k).n.getD 0) (s.position k).cRef (s.cal k).nRun.toNat = factor c.nRun := by
      rw [hn]; rfl
    rw [hexec, passAClose]
    refine ⟨fun h => congrArg Host.Outcome.next ?_, fun h => congrArg Host.Outcome.next ?_⟩
    · rw [if_pos h, finishCal_eq k _ _ s _ (by exact fun _ => rfl), hlanes]; rfl
    · rw [if_neg (not_le.2 h), hfactor]; rfl
  case passB =>
    have hexec : exec (.passBClose k) s = .next (passBClose k s) :=
      congrArg Host.Outcome.next (if_pos ((passBMet_iff s k).2 ⟨hB, by rw [hn]; exact hedges⟩))
    intro kB mean gap failed
    have hgap : factorGap kA kB = gap.natAbs := by simp only [factorGap, gap]; omega
    have hclose : 0 < c.nRun → passBClose k s =
        if mean < 12800 ∨ 512000 < mean then finishCal k .fail (some .range) (withCal
          { c with nB := some c.nRun, kB := some kB, k := some mean })
        else if mean * tol < gap.natAbs * 1000 then finishCal k .fail (some .tolerance) (withCal
          { c with nB := some c.nRun, kB := some kB, k := some mean })
        else calPass k mean (withCal { c with nB := some c.nRun, kB := some kB, k := some mean }) := by
      intro h
      have hfactor : passFactor ((s.cal k).n.getD 0) (s.position k).cRef (s.cal k).nRun.toNat = kB := by rw [hn]; rfl
      have hkA' : (s.cal k).kA.getD 0 = kA := by rw [show (s.cal k).kA = some kA from hkA]; rfl
      have htol' : (s.cal k).calTol.getD 0 = tol := by rw [htol]; rfl
      rw [← hgap]
      unfold passBClose
      have hpos : ¬ (s.cal k).nRun ≤ 0 := not_le.2 h
      simp only [if_neg hpos, hfactor, hkA', htol', State.modCal_modCal]
      rfl
    have hfinish : ∀ r cause, finishCal k r cause (withCal { c with nB := some c.nRun, kB := some kB, k := some mean }) =
        State.raise .cal lanes (withCal
          { c with nB := some c.nRun, kB := some kB, k := some mean, state := .done, result := some r, cause := cause }) :=
      fun r cause => hlanes ▸ finishCal_eq k r cause s
        (fun d => { d with nB := some c.nRun, kB := some kB, k := some mean }) fun _ => rfl
    rw [hexec]
    refine ⟨fun h => congrArg Host.Outcome.next ?_, fun h hr => congrArg Host.Outcome.next ?_,
      fun h hlo hhi ht => congrArg Host.Outcome.next ?_, fun h hlo hhi ht => congrArg Host.Outcome.next ?_⟩
    · rw [passBClose, if_pos h, finishCal_eq k _ _ s _ (by exact fun _ => rfl), hlanes]; rfl
    · rw [hclose h, if_pos hr, hfinish]
    · rw [hclose h, if_neg (by omega), if_pos ht, hfinish]
    · rw [hclose h, if_neg (by omega), if_neg (by omega), calPass]
      by_cases hlock : x.kLocked = true
      · rw [if_pos (by exact hlock), hfinish]
        simp only [failed, withCal, if_pos hlock]
      · rw [if_neg (by exact hlock)]
        have hstored := finishCal_eq k .pass none (s.modPosition k fun y => { y with k := mean })
          (fun d => { d with nB := some c.nRun, kB := some kB, k := some mean, stored := true }) fun _ => rfl
        rw [State.modPosition_cal, hlanes] at hstored
        refine (Eq.trans ?_ hstored).trans ?_
        · exact congrArg (finishCal k .pass none) (State.modCal_modCal (s.modPosition k fun y => { y with k := mean }) k
            (fun d => { d with nB := some c.nRun, kB := some kB, k := some mean }) fun e => { e with stored := true })
        · simp only [failed, withCal, if_neg hlock]
          rfl

end Sys2Proof.Machine
end


section
/-! PROOFS. A cut that falls due (08_cuts_and_packages.md R142 to R144) and the entry of a lane into FAULT
(01_lanes_and_positions.md R19), each by what it does to every record; the coil cut and the late cut. -/

namespace Sys2Proof.Machine

variable {s t : State} {l : LaneNo}

@[simp] theorem laneIn_lanesBelow (w : Nat) (l : LaneNo) : laneIn (lanesBelow w) l = decide (l.val < w) := by
  rw [laneIn, lanesBelow, BitVec.getLsbD_ofNat, Nat.testBit_two_pow_sub_one]
  simp

/-! ### A cut falls due -/

/-- The stop unit after a request for CUT_LATE where a cut is late (R144). -/
def StopUnit.ifLate (u : StopUnit) (late : Bool) : StopUnit := if late then { u with cutLate := true } else u

theorem requestIfLate_frame (late : Bool) (w : CutWhat) (s : State) :
    requestIfLate late w s = { s with stops := s.stops.ifLate late, ports := (requestIfLate late w s).ports } := by
  unfold requestIfLate; split
  · next h => simp only [StopUnit.ifLate, if_pos h]; rfl
  · next h => simp only [StopUnit.ifLate, if_neg h]

theorem heard_requestIfLate (late : Bool) (w : CutWhat) (s : State) : Heard s (requestIfLate late w s) := by
  unfold requestIfLate; split
  · exact heard_requestStop _ _ _
  · exact Heard.refl s

theorem raised_requestIfLate {late : Bool} (h : late = true) (w : CutWhat) (s : State) :
    Raised .stop (requestIfLate late w s) := by
  rw [requestIfLate, if_pos h]; exact raised_raise _ _ _

theorem shown_requestIfLate {late : Bool} (h : late = true) {w : CutWhat} (hl : laneIn w.lanes l = true) (s : State) :
    Shown .stop l (requestIfLate late w s) := by
  rw [requestIfLate, if_pos h]; exact shown_requestStop hl _ _

theorem joinCut_eq (w : CutWhat) (due : Nat) (late : Bool) (s : State) :
    joinCut w due late s = { s with cuts := (joinCut w due late s).cuts, ports := (joinCut w due late s).ports } := by
  unfold joinCut; split <;> rfl

theorem heard_joinCut (w : CutWhat) (due : Nat) (late : Bool) (s : State) : Heard s (joinCut w due late s) := by
  unfold joinCut; split
  · exact Heard.of_ports rfl
  · exact (Heard.of_ports rfl).trans (heard_raise _ _ _)

/-- A cut that joins REQUESTED is shown with CUT_DUE (R143). -/
theorem joinCut_cutDue {w : CutWhat} {due : Nat} {late : Bool} (h : s.cuts.queue.length + s.cuts.requested < 8) :
    ∃ u, u.ports = s.ports ∧ joinCut w due late s = State.raise .cutDue w.lanes u := by
  rw [joinCut, if_neg (by rw [freePlaces_eq_zero]; omega)]
  exact ⟨s.modCuts fun u =>
    { u with list := u.list ++ [{ what := w, duePos := due, state := .requested, late := late }] }, rfl, rfl⟩

/-- The state of a cut that falls due before its late test asks for CUT_LATE. -/
def cutPlaced (w : CutWhat) (due : Nat) (s : State) : State :=
  if s.cuts.holdsOther w then
    s.modCuts fun u => { u with deferred := u.deferred ++ [{ what := w, duePos := due, late := cutIsLate s w due }] }
  else joinCut w due (cutIsLate s w due) s

theorem cutFallsDue_eq (w : CutWhat) (due : Nat) (s : State) :
    cutFallsDue w due s = requestIfLate (cutIsLate s w due) w (cutPlaced w due s) := rfl

theorem cutPlaced_cuts (w : CutWhat) (due : Nat) (s : State) :
    (cutPlaced w due s).cuts = s.cuts.withDue w due (cutIsLate s w due) := by
  unfold cutPlaced CutUnit.withDue
  cases h : s.cuts.holdsOther w with
  | true => rw [if_pos rfl, if_pos (by exact h)]; rfl
  | false =>
    rw [if_neg Bool.false_ne_true, if_neg (by rw [CutUnit.holdsOther] at h; simp [h]), joinCut_cuts]
    rfl

theorem cutPlaced_frame (w : CutWhat) (due : Nat) (s : State) :
    cutPlaced w due s = { s with cuts := (cutPlaced w due s).cuts, ports := (cutPlaced w due s).ports } := by
  unfold cutPlaced; split
  · rfl
  · exact joinCut_eq _ _ _ _

theorem heard_cutPlaced (w : CutWhat) (due : Nat) (s : State) : Heard s (cutPlaced w due s) := by
  unfold cutPlaced; split
  · exact Heard.of_ports rfl
  · exact heard_joinCut _ _ _ _

/-- What a cut that falls due changes: the cut unit, the stop unit and the notices (R142 to R144). -/
theorem cutFallsDue_frame (w : CutWhat) (due : Nat) (s : State) :
    cutFallsDue w due s =
      { s with
        cuts := s.cuts.withDue w due (cutIsLate s w due), stops := s.stops.ifLate (cutIsLate s w due)
        ports := (cutFallsDue w due s).ports } := by
  have hplaced := cutPlaced_frame w due s
  rw [cutFallsDue_eq, requestIfLate_frame]
  rw [cutPlaced_cuts] at hplaced
  rw [hplaced]

theorem cutFallsDue_cuts (w : CutWhat) (due : Nat) (s : State) :
    (cutFallsDue w due s).cuts = s.cuts.withDue w due (cutIsLate s w due) := by rw [cutFallsDue_frame]

theorem cutFallsDue_stops (w : CutWhat) (due : Nat) (s : State) :
    (cutFallsDue w due s).stops = s.stops.ifLate (cutIsLate s w due) := by rw [cutFallsDue_frame]

theorem heard_cutFallsDue (w : CutWhat) (due : Nat) (s : State) : Heard s (cutFallsDue w due s) :=
  (heard_cutPlaced w due s).trans (heard_requestIfLate _ _ _)

/-- An entry that joined REQUESTED is at the tail of the list, where a place was free. -/
theorem requested_of_withDue {u : CutUnit} {w : CutWhat} {due : Nat} {late : Bool}
    (h : ∃ e ∈ (u.withDue w due late).list.drop u.list.length, e.state = .requested) :
    u.holdsOther w = false ∧ u.queue.length + u.requested < 8 := by
  obtain ⟨e, he, hreq⟩ := h
  unfold CutUnit.withDue at he
  split at he
  · simp at he
  · next hother =>
    refine ⟨by simpa [CutUnit.holdsOther] using hother, ?_⟩
    rw [List.drop_append_of_le_length le_rfl, List.drop_length, List.nil_append, List.mem_singleton] at he
    subst he
    by_contra hfull
    exact absurd (Eq.trans (if_neg hfull).symm hreq) (by decide)

/-- A cut whose entry is REQUESTED as it falls due is shown with CUT_DUE (R143). -/
theorem cutFallsDue_cutDue {w : CutWhat} {due : Nat}
    (h : ∃ e ∈ (cutFallsDue w due s).cuts.list.drop s.cuts.list.length, e.state = .requested) :
    Raised .cutDue (cutFallsDue w due s) ∧ ∀ l, laneIn w.lanes l = true → Shown .cutDue l (cutFallsDue w due s) := by
  rw [cutFallsDue_cuts] at h
  obtain ⟨hother, hfree⟩ := requested_of_withDue h
  obtain ⟨u, -, hu⟩ := joinCut_cutDue (w := w) (due := due) (late := cutIsLate s w due) hfree
  have hplaced : cutPlaced w due s = State.raise .cutDue w.lanes u := by
    rw [cutPlaced, if_neg (by simp [hother]), hu]
  have hheard := heard_requestIfLate (cutIsLate s w due) w (cutPlaced w due s)
  rw [← cutFallsDue_eq] at hheard
  exact ⟨(hplaced ▸ raised_raise _ _ _ : Raised .cutDue (cutPlaced w due s)).heard hheard,
    fun l hl => (hplaced ▸ shown_raise hl _ : Shown .cutDue l (cutPlaced w due s)).heard hheard⟩

/-- A cut that is late as it falls due is shown with STOP (R144). -/
theorem cutFallsDue_stop {w : CutWhat} {due : Nat} (h : cutIsLate s w due = true) :
    Raised .stop (cutFallsDue w due s) ∧ ∀ l, laneIn w.lanes l = true → Shown .stop l (cutFallsDue w due s) :=
  ⟨raised_requestIfLate h _ _, fun _ hl => shown_requestIfLate h hl _⟩

/-! ### The coil cut -/

/-- The due plan of a lane: its place and its reason stay (R138). -/
def Lane.dueNow (x : Lane) : Lane := { x with plan := { x.plan with state := .due } }

theorem cutIsLate_modPlan (f : Lane → Lane) (hf : ∀ x, (f x).berth = x.berth) (s : State) (r : CutReason) (due : Nat) :
    cutIsLate (s.modLane l f) (.coil l r) due = cutIsLate s (.coil l r) due := by
  have h := (Local.refl l s).modLane f hf
  simp only [cutIsLate, h.activeRecipe, h.cutterCoord]

/-- What a coil's cut that falls due changes: the plan, the cut unit, the stop unit and the notices (R138). -/
theorem coilCutDue_frame (l : LaneNo) (s : State) :
    coilCutDue l s =
      { s.setLane l (s.lane l).dueNow with
        cuts := s.cuts.withDue (.coil l (s.lane l).plan.reason) (s.lane l).plan.planPos
          (cutIsLate s (.coil l (s.lane l).plan.reason) (s.lane l).plan.planPos)
        stops := s.stops.ifLate (cutIsLate s (.coil l (s.lane l).plan.reason) (s.lane l).plan.planPos)
        ports := (coilCutDue l s).ports } := by
  have h := cutFallsDue_frame (.coil l (s.lane l).plan.reason) (s.lane l).plan.planPos (s.modLane l Lane.dueNow)
  rw [cutIsLate_modPlan Lane.dueNow fun _ => rfl] at h
  exact h

theorem heard_coilCutDue (l : LaneNo) (s : State) : Heard s (coilCutDue l s) :=
  (Heard.of_ports (t := s.modLane l Lane.dueNow) rfl).trans
    (heard_cutFallsDue (.coil l (s.lane l).plan.reason) (s.lane l).plan.planPos (s.modLane l Lane.dueNow))

theorem coilCutDue_cutDue (h : ∃ e ∈ (coilCutDue l s).cuts.list.drop s.cuts.list.length, e.state = .requested) :
    Shown .cutDue l (coilCutDue l s) :=
  (cutFallsDue_cutDue (s := s.modLane l Lane.dueNow) (w := .coil l (s.lane l).plan.reason)
    (due := (s.lane l).plan.planPos) h).2 l (by simp [CutWhat.lanes])

theorem coilCutDue_stop (h : cutIsLate s (.coil l (s.lane l).plan.reason) (s.lane l).plan.planPos = true) :
    Shown .stop l (coilCutDue l s) :=
  (cutFallsDue_stop (s := s.modLane l Lane.dueNow) (w := .coil l (s.lane l).plan.reason)
    (due := (s.lane l).plan.planPos) (by rw [cutIsLate_modPlan Lane.dueNow fun _ => rfl]; exact h)).2 l
    (by simp [CutWhat.lanes])

theorem coilCutMet_iff (l : LaneNo) (s : State) : coilCutMet l s = true ↔
    (s.lane l).plan.state = .watching ∧
      ((s.lane l).state = .run ∨ (s.lane l).state = .splicing ∨ (s.lane l).state = .fault) ∧
      s.line.mode = .rope ∧ (s.lane l).plan.planPos ≤ (s.lane l).tally / 256 - s.line.dCut * 1000 := by
  simp only [coilCutMet, Bool.and_eq_true, beq_iff_eq, decide_eq_true_eq, and_assoc]
  cases h : (s.lane l).state <;> simp [LaneState.running] <;> exact fun _ _ => Iff.rfl

/-! ### The entry into FAULT -/

theorem asksLaneFault_iff (l : LaneNo) (s : State) : asksLaneFault l s = true ↔
    (s.recipe (s.lane l).slot).stopOnFault = true ∨
      (s.line.mode = .net ∧ s.panel.state ≠ .none ∧ l.val < (s.recipe s.line.lineSlot).netWidth) := by
  simp [asksLaneFault, State.activeRecipe, State.panelOpen, State.netSet, State.lineRecipe, and_assoc]

theorem Local.asksLaneFault (h : Local l s t) : Machine.asksLaneFault l t = Machine.asksLaneFault l s := by
  simp only [Machine.asksLaneFault, State.panelOpen, State.netSet, State.lineRecipe, h.activeRecipe, h.line, h.panel,
    h.recipe]

theorem leaveForFault_frame (l : LaneNo) (atEnd : Bool) (s : State) :
    { leaveForFault l atEnd s with lanes := s.lanes, marks := s.marks } = s := by
  unfold leaveForFault closeSplice
  split
  · rfl
  · split <;> rfl
  all_goals rfl

/-- The stop unit after a lane has entered FAULT (R19, R185). -/
def StopUnit.faulted (u : StopUnit) (asks : Bool) (l : LaneNo) : StopUnit :=
  if asks then { u with laneFault := true, faultRecord := u.faultRecord ||| laneBit l } else u

/-- The state of a lane in FAULT, before its request for LANE_FAULT (R19). -/
def faulted (l : LaneNo) (cause : FaultCause) (atEnd : Bool) (s : State) : State :=
  setLaneState l .fault ((abortCal l (leaveForFault l atEnd s)).modLane l fun x => { x with faultCause := some cause })

theorem faultEntry_eq (l : LaneNo) (cause : FaultCause) (atEnd : Bool) (s : State) :
    faultEntry l cause atEnd s =
      if asksLaneFault l s then (faulted l cause atEnd s).requestStop .laneFault (laneBit l)
      else faulted l cause atEnd s := by
  have hlocal : Local l s (faulted l cause atEnd s) :=
    (((Local.refl l s).leaveForFault atEnd).abortCal.modLane (fun x => { x with faultCause := some cause })
      fun _ => rfl).setLaneState .fault
  rw [← hlocal.asksLaneFault]
  rfl

theorem faulted_lane (l : LaneNo) (cause : FaultCause) (atEnd : Bool) (s : State) :
    (faulted l cause atEnd s).lane l =
      { (leaveForFault l atEnd s).lane l with state := .fault, faultCause := some cause } := by
  simp [faulted, setLaneState]

theorem faulted_frame (l : LaneNo) (cause : FaultCause) (atEnd : Bool) (s : State) :
    { faulted l cause atEnd s with
      lanes := s.lanes, marks := s.marks, cals := s.cals, ports := s.ports } = s := by
  have habort := abortCal_frame l (leaveForFault l atEnd s)
  have hleave := leaveForFault_frame l atEnd s
  calc { faulted l cause atEnd s with lanes := s.lanes, marks := s.marks, cals := s.cals, ports := s.ports }
    _ = { (abortCal l (leaveForFault l atEnd s)) with
          lanes := s.lanes, marks := s.marks, cals := s.cals, ports := s.ports } := rfl
    _ = { ({ abortCal l (leaveForFault l atEnd s) with
            cals := (leaveForFault l atEnd s).cals, ports := (leaveForFault l atEnd s).ports } : State) with
          lanes := s.lanes, marks := s.marks, cals := s.cals, ports := s.ports } := rfl
    _ = { leaveForFault l atEnd s with
          lanes := s.lanes, marks := s.marks, cals := s.cals, ports := s.ports } := by rw [habort]
    _ = { ({ leaveForFault l atEnd s with lanes := s.lanes, marks := s.marks } : State) with
          cals := s.cals, ports := s.ports } := rfl
    _ = s := by rw [hleave]

theorem faulted_marks (l : LaneNo) (cause : FaultCause) (atEnd : Bool) (s : State) :
    (faulted l cause atEnd s).marks = (leaveForFault l atEnd s).marks :=
  (congrArg State.marks (abortCal_frame l (leaveForFault l atEnd s)) :)

theorem faulted_cal (l : LaneNo) (cause : FaultCause) (atEnd : Bool) (s : State) (k : PosNo) :
    (faulted l cause atEnd s).cal k =
      if (s.lane l).position = some k then (s.cal k).aborted else s.cal k := by
  have hpos := ((Local.refl l s).leaveForFault atEnd).position
  have hcal : (leaveForFault l atEnd s).cal k = s.cal k := (congrArg (fun u : State => u.cal k) (leaveForFault_frame l atEnd s) :)
  calc (faulted l cause atEnd s).cal k
    _ = (abortCal l (leaveForFault l atEnd s)).cal k := rfl
    _ = _ := by rw [abortCal_cal, hpos, hcal]

theorem faultEntry_lane (l : LaneNo) (cause : FaultCause) (atEnd : Bool) (s : State) :
    (faultEntry l cause atEnd s).lane l =
      { (leaveForFault l atEnd s).lane l with state := .fault, faultCause := some cause } := by
  rw [faultEntry_eq, ← faulted_lane]; split <;> rfl

theorem faultEntry_marks (l : LaneNo) (cause : FaultCause) (atEnd : Bool) (s : State) :
    (faultEntry l cause atEnd s).marks = (leaveForFault l atEnd s).marks := by
  rw [faultEntry_eq, ← faulted_marks l cause]; split <;> rfl

theorem faultEntry_cal (l : LaneNo) (cause : FaultCause) (atEnd : Bool) (s : State) (k : PosNo) :
    (faultEntry l cause atEnd s).cal k =
      if (s.lane l).position = some k then (s.cal k).aborted else s.cal k := by
  rw [faultEntry_eq, ← faulted_cal l cause atEnd]; split <;> rfl

theorem faultEntry_stops (l : LaneNo) (cause : FaultCause) (atEnd : Bool) (s : State) :
    (faultEntry l cause atEnd s).stops = s.stops.faulted (asksLaneFault l s) l := by
  have hstops : (faulted l cause atEnd s).stops = s.stops := (congrArg State.stops (faulted_frame l cause atEnd s) :)
  rw [faultEntry_eq, StopUnit.faulted]
  split
  · rw [State.requestStop_stops, hstops]; rfl
  · exact hstops

theorem faultEntry_cuts (l : LaneNo) (cause : FaultCause) (atEnd : Bool) (s : State) :
    (faultEntry l cause atEnd s).cuts = s.cuts := by
  have hcuts : (faulted l cause atEnd s).cuts = s.cuts := (congrArg State.cuts (faulted_frame l cause atEnd s) :)
  rw [faultEntry_eq]; split <;> exact hcuts

theorem faulted_laneState (l : LaneNo) (cause : FaultCause) (atEnd : Bool) (s : State) :
    Shown .laneState l (faulted l cause atEnd s) := shown_setLaneState _ _ _

theorem heard_faulted (l : LaneNo) (cause : FaultCause) (atEnd : Bool) (s : State) :
    Heard (faulted l cause atEnd s) (faultEntry l cause atEnd s) := by
  rw [faultEntry_eq]; split
  · exact heard_requestStop _ _ _
  · exact Heard.refl _

theorem faultEntry_laneState (l : LaneNo) (cause : FaultCause) (atEnd : Bool) (s : State) :
    Shown .laneState l (faultEntry l cause atEnd s) :=
  (faulted_laneState l cause atEnd s).heard (heard_faulted l cause atEnd s)

theorem faultEntry_stop (h : asksLaneFault l s = true) (cause : FaultCause) (atEnd : Bool) :
    Shown .stop l (faultEntry l cause atEnd s) := by
  rw [faultEntry_eq, if_pos h]; exact shown_requestStop (by simp) _ _

/-- A calibration that runs on the lane's position is shown with CAL as it is aborted (R51). -/
theorem faultEntry_raised {k : PosNo} (hk : (s.lane l).position = some k) (hr : (s.cal k).running = true)
    (cause : FaultCause) (atEnd : Bool) :
    Raised .cal (faultEntry l cause atEnd s) ∧
      ∀ m, (s.cal k).lane = some m → Shown .cal m (faultEntry l cause atEnd s) := by
  have hcal : (leaveForFault l atEnd s).cal k = s.cal k := (congrArg (fun u : State => u.cal k) (leaveForFault_frame l atEnd s) :)
  have hpos := ((Local.refl l s).leaveForFault atEnd).position
  obtain ⟨hraised, hshown⟩ := abortCal_raised (hpos.trans hk) (hcal ▸ hr)
  have hheard : Heard (abortCal l (leaveForFault l atEnd s)) (faultEntry l cause atEnd s) :=
    ((Heard.of_ports rfl).trans (heard_setLaneState l .fault _)).trans (heard_faulted l cause atEnd s)
  exact ⟨hraised.heard hheard, fun m hm => (hshown m (hcal ▸ hm)).heard hheard⟩

theorem CalRecord.aborted_of_running {c : CalRecord} (h : c.running = true) :
    c.aborted = { c with state := .done, result := some .aborted, cause := none } := if_pos h

theorem CalRecord.aborted_of_not_running {c : CalRecord} (h : ¬ c.running = true) : c.aborted = c := if_neg h

/-- A lane of `s` that entered FAULT from a state with the same recipes, line, panel, stop unit, calibrations and
place (R19, R51). -/
theorem faultEntry_entered (h : Local l s t) (hstops : t.stops = s.stops) (hcals : t.cals = s.cals)
    (cause : FaultCause) (atEnd : Bool) : FaultEntered s (faultEntry l cause atEnd t) l := by
  have hcal : ∀ k, t.cal k = s.cal k := fun k => by rw [State.cal, hcals, State.cal]
  have hasks := h.asksLaneFault
  unfold FaultEntered
  intro asks ran
  have hiff : asksLaneFault l t = true ↔ asks := by rw [hasks]; exact asksLaneFault_iff l s
  refine ⟨faultEntry_laneState l cause atEnd t, fun ha => ⟨?_, faultEntry_stop (hiff.2 ha) cause atEnd⟩, fun ha => ?_,
    fun k => ⟨fun hk => ?_, fun hk => ⟨?_, ?_⟩⟩⟩
  · rw [faultEntry_stops, StopUnit.faulted, if_pos (hiff.2 ha), hstops]
  · rw [faultEntry_stops, StopUnit.faulted, if_neg (mt hiff.1 ha), hstops]
  · rw [faultEntry_cal, h.position, hcal]
    split
    · next hp => exact CalRecord.aborted_of_not_running fun hr => hk ⟨hp, (CalRecord.running_iff _).1 hr⟩
    · rfl
  · rw [faultEntry_cal, h.position, hcal, if_pos hk.1,
      CalRecord.aborted_of_running ((CalRecord.running_iff _).2 hk.2)]
  · obtain ⟨hraised, hshown⟩ := faultEntry_raised (h.position.trans hk.1)
      (by rw [hcal]; exact (CalRecord.running_iff _).2 hk.2) cause atEnd
    exact fun q => ⟨hraised q, fun m hm => (hshown m (by rw [hcal]; exact hm) q).2⟩

/-! ### The overlong splice -/

theorem closeSplice_of_open {a : Nat} (h : (s.lane l).spliceStart = some a) :
    closeSplice l s = (s.setMarkList l ((s.markList l).map fun m =>
        if m.kind = .splice ∧ m.extent = none then { m with extent := some ((s.lane l).tally / 256 - a) } else m)).setLane l
      { s.lane l with spliceStart := none } := by
  have hclose : closeSpliceIn (spliceExtent (s.lane l)) (s.markList l) = (s.markList l).map fun m =>
      if m.kind = .splice ∧ m.extent = none then { m with extent := some ((s.lane l).tally / 256 - a) } else m := by
    unfold closeSpliceIn
    congr 1
    funext m
    simp only [Mark.isOpenSplice, spliceExtent, h, Option.getD_some, Lane.um, Bool.and_eq_true, beq_iff_eq,
      Option.isNone_iff_eq_none]
  rw [closeSplice, if_pos (by rw [h]; rfl), hclose]
  rfl

theorem spliceOverlongMet_iff {a : Nat} (ha : (s.lane l).spliceStart = some a) : spliceOverlongMet l s = true ↔
    (s.lane l).state = .splicing ∧ a + (s.activeRecipe l).spliceMaxMm * 1000 < (s.lane l).tally / 256 := by
  simp only [spliceOverlongMet, ha, Bool.and_eq_true, beq_iff_eq, decide_eq_true_eq]
  rfl

/-- Settles O42: by whether the tally lies past the longest splice (R73, R19). -/
theorem overlongSpliceFaultsTheLane : Obligations.OverlongSpliceFaultsTheLane := by
  intro s l x r asks a ha hsp
  have hexec : exec (.spliceOverlong l) s = .next (spliceOverlongIfMet l s) := rfl
  refine ⟨fun hle => ?short, fun hlt => ?overlong⟩
  case short =>
    rw [hexec, spliceOverlongIfMet, if_neg]
    rw [spliceOverlongMet_iff ha]
    exact fun h => absurd h.2 (not_lt.2 hle)
  case overlong =>
    rw [hexec, spliceOverlongIfMet, if_pos ((spliceOverlongMet_iff ha).2 ⟨hsp, hlt⟩)]
    have hleave : leaveForFault l false s = closeSplice l s := by
      rw [leaveForFault, show (s.lane l).state = .splicing from hsp]
    have hclose := hleave.trans (closeSplice_of_open ha)
    have hlocal := (Local.refl l s).faultEntry .spliceOverlong false
    obtain ⟨hstate, hasks, hno, hcal⟩ := faultEntry_entered (Local.refl l s) rfl rfl .spliceOverlong false
    refine ⟨_, rfl, ?lane, fun m hm => ⟨hlocal.lane m hm, hlocal.markList m hm⟩, ?marks, fun k => ?cal,
      fun h => ⟨(hasks h).1, fun p => ((hasks h).2 p).1⟩, hno, fun p => (hstate p).1, hlocal.positions, hlocal.recipes,
      hlocal.line, hlocal.panel, hlocal.rows, faultEntry_cuts _ _ _ _, forcing_of_fixed hlocal.fixed,
      inputs_of_fixed hlocal.fixed⟩
    case lane => rw [faultEntry_lane, hclose, State.setLane_lane_self]
    case marks =>
      have hmarks : (faultEntry l .spliceOverlong false s).markList l = (leaveForFault l false s).markList l :=
        congrArg (fun u : MarkStore => u.lists[l]) (faultEntry_marks l _ _ s)
      rw [hmarks, hclose, State.setLane_markList, State.setMarkList_markList_self]
    case cal =>
      split
      · next h => exact ((hcal k).2 h).1
      · next h => exact (hcal k).1 h

/-! ### The coil cut's row and the late cut's row -/

theorem becomesLate_iff (u : CutUnit) (sel : CutWhat → Bool) (past : Nat → Bool) :
    u.becomesLate sel past = true ↔ ∃ d ∈ u.dueCuts, sel d.what = true ∧ d.late = false ∧ past d.duePos = true := by
  simp only [CutUnit.becomesLate, CutUnit.dueCuts, List.mem_append, List.mem_map, Bool.or_eq_true, List.any_eq_true,
    Bool.and_eq_true, Bool.not_eq_true']
  constructor
  · rintro (⟨e, he, ⟨h1, h2⟩, h3⟩ | ⟨d, hd, ⟨h1, h2⟩, h3⟩)
    · exact ⟨_, .inl ⟨e, he, rfl⟩, h1, h2, h3⟩
    · exact ⟨d, .inr hd, h1, h2, h3⟩
  · rintro ⟨d, ⟨e, he, rfl⟩ | hd, h1, h2, h3⟩
    · exact .inl ⟨e, he, ⟨h1, h2⟩, h3⟩
    · exact .inr ⟨d, hd, ⟨h1, h2⟩, h3⟩

theorem NoticeSet.add_add (n : NoticeSet) (k : NoticeKind) (ls : LaneSet) : (n.add k ls).add k ls = n.add k ls := by
  simp [NoticeSet.add, BitVec.or_assoc]

theorem State.raise_raise (k : NoticeKind) (ls : LaneSet) (s : State) :
    State.raise k ls (State.raise k ls s) = State.raise k ls s := by
  have h : ∀ P : Port, Port.notify k ls (Port.notify k ls P) = Port.notify k ls P := fun P => by
    simp [Port.notify, NoticeSet.add_add]
  simp [State.raise, State.mapPorts, h]

theorem State.requestStop_cutLate_twice (ls : LaneSet) (s : State) :
    (s.requestStop .cutLate ls).requestStop .cutLate ls = s.requestStop .cutLate ls :=
  State.raise_raise .stop ls { s with stops := s.stops.add .cutLate ls }

/-- Requests for CUT_LATE with the same lanes are one request, where there is any. -/
theorem requestLate_foldl (lanes : LaneSet) (ds : List DeferredCut) (h : ∀ d ∈ ds, d.what.lanes = lanes) (s : State) :
    ds.foldl (fun t d => t.requestStop .cutLate d.what.lanes) s =
      if ds = [] then s else s.requestStop .cutLate lanes := by
  induction ds generalizing s with
  | nil => rfl
  | cons d ds ih =>
    rw [List.foldl_cons, ih (fun e he => h e (List.mem_cons_of_mem d he)), h d List.mem_cons_self,
      State.requestStop_cutLate_twice, ite_self, if_neg (List.cons_ne_nil d ds)]

/-- The cuts that the late test of a choice newly finds late, where `past` says the test for them. -/
theorem newlyLate_eq_nil_iff {sel : CutWhat → Bool} {past : Nat → Bool}
    (h : ∀ d ∈ s.cuts.dueCuts, sel d.what = true → cutIsLate s d.what d.duePos = past d.duePos) :
    newlyLate s sel = [] ↔ s.cuts.becomesLate sel past = false := by
  rw [← Bool.not_eq_true, becomesLate_iff, newlyLate, List.filter_eq_nil_iff]
  simp only [Bool.and_eq_true, Bool.not_eq_true', not_exists, not_and]
  exact forall₂_congr fun d hd => ⟨fun hn hs hl hp => hn ⟨hs, hl⟩ (by rw [h d hd hs, hp]),
    fun hn ⟨hs, hl⟩ hp => hn hs hl (by rw [← h d hd hs, hp])⟩

theorem newlyLate_lanes {sel : CutWhat → Bool} {lanes : LaneSet}
    (h : ∀ d ∈ s.cuts.dueCuts, sel d.what = true → d.what.lanes = lanes) :
    ∀ d ∈ newlyLate s sel, d.what.lanes = lanes := by
  intro d hd
  obtain ⟨hd, hsel⟩ := List.mem_filter.1 hd
  exact h d hd (by simp only [Bool.and_eq_true] at hsel; exact hsel.1.1)

theorem mem_dueCuts_entry {u : CutUnit} {e : CutEntry} (h : e ∈ u.list) :
    { what := e.what, duePos := e.duePos, late := e.late } ∈ u.dueCuts :=
  List.mem_append_left _ (List.mem_map_of_mem h)

theorem mem_dueCuts_deferred {u : CutUnit} {d : DeferredCut} (h : d ∈ u.deferred) : d ∈ u.dueCuts :=
  List.mem_append_right _ h

/-- The late test of a choice of cuts (R144), `past` being the test for them and `lanes` their lanes. -/
theorem retestLate_eq {sel : CutWhat → Bool} {past : Nat → Bool} {lanes : LaneSet}
    (hpast : ∀ d ∈ s.cuts.dueCuts, sel d.what = true → cutIsLate s d.what d.duePos = past d.duePos)
    (hlanes : ∀ d ∈ s.cuts.dueCuts, sel d.what = true → d.what.lanes = lanes) :
    retestLate sel s = s.lateTested sel past lanes := by
  have hset : setLate sel s = { s with cuts := s.cuts.tested sel past } := by
    have hlist : s.cuts.list.map (CutEntry.retest s sel) =
        s.cuts.list.map fun e => if sel e.what then { e with late := past e.duePos } else e :=
      List.map_congr_left fun e he => by
        by_cases hsel : sel e.what = true
        · simp only [CutEntry.retest, if_pos hsel, hpast _ (mem_dueCuts_entry he) hsel]
        · simp only [CutEntry.retest, if_neg hsel]
    have hdeferred : s.cuts.deferred.map (DeferredCut.retest s sel) =
        s.cuts.deferred.map fun d => if sel d.what then { d with late := past d.duePos } else d :=
      List.map_congr_left fun d hd => by
        by_cases hsel : sel d.what = true
        · simp only [DeferredCut.retest, if_pos hsel, hpast _ (mem_dueCuts_deferred hd) hsel]
        · simp only [DeferredCut.retest, if_neg hsel]
    simp only [setLate, State.modCuts, hlist, hdeferred]
    rfl
  rw [retestLate, hset, requestLate_foldl lanes _ (newlyLate_lanes hlanes), State.lateTested]
  cases hb : s.cuts.becomesLate sel past with
  | false => rw [if_pos ((newlyLate_eq_nil_iff hpast).2 hb), if_neg Bool.false_ne_true]
  | true => rw [if_neg (by rw [newlyLate_eq_nil_iff hpast, hb]; exact Bool.noConfusion), if_pos rfl]; rfl

end Sys2Proof.Machine
end


section
/-! PROOFS. The rows of a coil's cut and of late cuts (R138, R144), the end of threading and START_LANE
(01_lanes_and_positions.md R11 to R13), and ASSIGN_RECIPE (06_recipes_and_patterns.md R105 to R111). -/

namespace Sys2Proof.Machine

variable {s t : State} {l : LaneNo}

/-! ### Late cuts -/

theorem isCoilOf_iff (w : CutWhat) (l : LaneNo) : w.isCoilOf l = true ↔ ∃ r, w = .coil l r := by
  cases w <;> simp [CutWhat.isCoilOf]

/-- The late test for a coil cut of a lane, at the lane's cutter (R144). -/
theorem cutIsLate_coil {w : CutWhat} (h : w.isCoilOf l = true) (s : State) (due : Nat) :
    cutIsLate s w due = decide (due + (s.recipe (s.lane l).slot).overlengthMm * 1000
      < (s.lane l).tally / 256 - s.line.dCut * 1000) := by
  obtain ⟨r, rfl⟩ := (isCoilOf_iff w l).1 h
  rfl

theorem lanes_coil {w : CutWhat} (h : w.isCoilOf l = true) : w.lanes = laneBit l := by
  obtain ⟨r, rfl⟩ := (isCoilOf_iff w l).1 h
  rfl

/-- The late test for the panel's cut, at the draw (R144). -/
theorem cutIsLate_panel {w : CutWhat} (h : (!w.isCoil) = true) (s : State) (due : Nat) :
    cutIsLate s w due = decide (due + (s.recipe s.line.lineSlot).overlengthMm * 1000 < s.line.drawTally / 256) := by
  cases w with
  | coil => simp [CutWhat.isCoil] at h
  | panel => rfl

theorem lanes_panel {w : CutWhat} {lanes : LaneSet} (h : (!w.isCoil) = true) (hw : w.isCoil = true ∨ w = .panel lanes) :
    w.lanes = lanes := by
  obtain hc | rfl := hw
  · simp [hc] at h
  · rfl

/-- The cut unit with the cuts of a choice marked late where they are past their limit (R144). -/
def CutUnit.marked (u : CutUnit) (sel : CutWhat → Bool) (past : Nat → Bool) : CutUnit :=
  { u with
    list := u.list.map fun e => if sel e.what && past e.duePos then { e with late := true } else e
    deferred := u.deferred.map fun d => if sel d.what && past d.duePos then { d with late := true } else d }

theorem CutEntry.withLate_eq {e : CutEntry} (h : e.late = true) : { e with late := true } = e := by
  cases e; simp_all

theorem DeferredCut.withLate_eq {d : DeferredCut} (h : d.late = true) : { d with late := true } = d := by
  cases d; simp_all

/-- Where no cut becomes late the marking changes nothing. -/
theorem CutUnit.marked_of_not_becomesLate {u : CutUnit} {sel : CutWhat → Bool} {past : Nat → Bool}
    (h : u.becomesLate sel past = false) : u.marked sel past = u := by
  have hlate : ∀ d ∈ u.dueCuts, (sel d.what && past d.duePos) = true → d.late = true := fun d hd hsel => by
    by_contra hl
    rw [Bool.and_eq_true] at hsel
    exact Bool.eq_false_iff.1 h ((becomesLate_iff _ _ _).2 ⟨d, hd, hsel.1, Bool.not_eq_true _ ▸ hl, hsel.2⟩)
  have hlist : u.list.map (fun e => if sel e.what && past e.duePos then { e with late := true } else e) = u.list :=
    (List.map_congr_left (g := id) fun e he => by
      split
      · next hsel => exact CutEntry.withLate_eq (hlate _ (mem_dueCuts_entry he) hsel)
      · rfl).trans (List.map_id _)
  have hdeferred : u.deferred.map (fun d => if sel d.what && past d.duePos then { d with late := true } else d)
      = u.deferred :=
    (List.map_congr_left (g := id) fun d hd => by
      split
      · next hsel => exact DeferredCut.withLate_eq (hlate _ (mem_dueCuts_deferred hd) hsel)
      · rfl).trans (List.map_id _)
  simp only [CutUnit.marked, hlist, hdeferred]

/-- The row of a late cut: its choice of cuts is marked, with one request where a cut is newly late (R144). -/
theorem cutLateIfMet_eq (c : CutName) {past : Nat → Bool} {lanes : LaneSet}
    (hpast : ∀ d ∈ s.cuts.dueCuts, cutNameSelects c d.what = true → cutIsLate s d.what d.duePos = past d.duePos)
    (hlanes : ∀ d ∈ s.cuts.dueCuts, cutNameSelects c d.what = true → d.what.lanes = lanes) :
    cutLateIfMet c s =
      if s.cuts.becomesLate (cutNameSelects c) past then
        State.raise .stop lanes
          { s with cuts := s.cuts.marked (cutNameSelects c) past, stops := { s.stops with cutLate := true } }
      else s := by
  have hlist : s.cuts.list.map (fun e =>
      if cutNameSelects c e.what && !e.late && cutIsLate s e.what e.duePos then { e with late := true } else e) =
      s.cuts.list.map fun e => if cutNameSelects c e.what && past e.duePos then { e with late := true } else e :=
    List.map_congr_left fun e he => by
      cases hsel : cutNameSelects c e.what with
      | false => simp
      | true => rw [← hpast _ (mem_dueCuts_entry he) hsel]; cases hl : e.late <;> cases e <;> simp_all
  have hdeferred : s.cuts.deferred.map (fun d =>
      if cutNameSelects c d.what && !d.late && cutIsLate s d.what d.duePos then { d with late := true } else d) =
      s.cuts.deferred.map fun d => if cutNameSelects c d.what && past d.duePos then { d with late := true } else d :=
    List.map_congr_left fun d hd => by
      cases hsel : cutNameSelects c d.what with
      | false => simp
      | true => rw [← hpast _ (mem_dueCuts_deferred hd) hsel]; cases hl : d.late <;> cases d <;> simp_all
  have hform : cutLateIfMet c s = (newlyLate s (cutNameSelects c)).foldl
      (fun t d => t.requestStop .cutLate d.what.lanes) { s with cuts := s.cuts.marked (cutNameSelects c) past } := by
    simp only [cutLateIfMet, State.modCuts, hlist, hdeferred]
    rfl
  rw [hform, requestLate_foldl lanes _ (newlyLate_lanes hlanes)]
  cases hb : s.cuts.becomesLate (cutNameSelects c) past with
  | true => rw [if_neg (by rw [newlyLate_eq_nil_iff hpast, hb]; exact Bool.noConfusion), if_pos rfl]; rfl
  | false =>
    rw [if_pos ((newlyLate_eq_nil_iff hpast).2 hb), if_neg Bool.false_ne_true]
    rw [CutUnit.marked_of_not_becomesLate hb]

/-- Settles O48: the coil cut by its test, and the late cut by whether a cut becomes late (R138, R142 to R144). -/
theorem coilCutFallsDueAndRunsLate : Obligations.CoilCutFallsDueAndRunsLate := by
  intro s l x cutter past marked met
  have hlate : cutIsLate s (.coil l x.plan.reason) x.plan.planPos = past x.plan.planPos :=
    cutIsLate_coil (by simp [CutWhat.isCoilOf]) s _
  have hlane : ∀ b, s.cuts.becomesLate (CutWhat.isCoilOf l) past = b → exec (.cutLate (.lane l)) s = .next
      (if b then State.raise .stop (laneBit l)
        { s with cuts := marked (CutWhat.isCoilOf l) past, stops := { s.stops with cutLate := true } } else s) := by
    rintro b rfl
    exact congrArg Host.Outcome.next (cutLateIfMet_eq (s := s) (.lane l) (fun d _ h => cutIsLate_coil h s _)
      fun d _ h => lanes_coil h)
  refine ⟨fun h => ?short, fun h => ?due, hlane false, hlane true, fun lanes hcuts => ?panel⟩
  case short => exact congrArg Host.Outcome.next (if_neg (mt (coilCutMet_iff l s).1 h))
  case due =>
    have hexec : exec (.coilCutDue l) s = .next (coilCutDue l s) :=
      congrArg Host.Outcome.next (if_pos ((coilCutMet_iff l s).2 h))
    have hframe := coilCutDue_frame l s
    rw [hlate] at hframe
    refine ⟨coilCutDue l s, hexec, (congrArg State.cuts hframe :), (congrArg State.stops hframe :),
      fun p => ⟨fun he => coilCutDue_cutDue he p, fun hp => coilCutDue_stop (hlate.trans hp) p⟩,
      (congrArg State.lanes hframe :), (congrArg State.marks hframe :), (congrArg State.positions hframe :),
      (congrArg State.cals hframe :), (congrArg State.recipes hframe :), (congrArg State.line hframe :),
      (congrArg State.panel hframe :), (congrArg State.rows hframe :)⟩
  case panel =>
    intro beyond
    have hpanel : ∀ b, s.cuts.becomesLate (fun w => !w.isCoil) beyond = b → exec (.cutLate .panel) s = .next
        (if b then State.raise .stop lanes
          { s with cuts := marked (fun w => !w.isCoil) beyond, stops := { s.stops with cutLate := true } } else s) := by
      rintro b rfl
      exact congrArg Host.Outcome.next (cutLateIfMet_eq (s := s) .panel (fun d _ h => cutIsLate_panel h s _)
        fun d hd h => lanes_panel h (hcuts d hd))
    exact ⟨hpanel false, hpanel true⟩

/-! ### The end of threading -/

/-- The record of a lane that enters RUN from THREADING under a recipe (R13, R69, R137). -/
def Lane.entered (mode : LineMode) (r : Recipe) (x : Lane) : Lane :=
  { x with
    state := .run, trim := startTrim r x.trim, windowStart := x.um, windowPulses := 0, capstanPulses := 0
    periodIndex := 0, highCount := 0, lowCount := 0
    plan := if mode = .rope then
        { state := .watching, planPos := x.coilStart + r.coilM * 1000000, reason := .normal }
      else x.plan }

theorem raise_modLane (k : NoticeKind) (ls : LaneSet) (l : LaneNo) (f : Lane → Lane) (s : State) :
    (State.raise k ls s).modLane l f = State.raise k ls (s.modLane l f) := rfl

@[simp] theorem State.setLane_lane_eq (s : State) (l : LaneNo) : s.setLane l (s.lane l) = s := by
  simp [State.setLane, State.lane]

/-- TRIM is raised with the lane where its trim has changed. -/
def raiseTrim (same : Prop) [Decidable same] (l : LaneNo) (s : State) : State :=
  if same then s else State.raise .trim (laneBit l) s

theorem raiseTrim_modLane (same : Prop) [Decidable same] (f : Lane → Lane) (s : State) :
    (raiseTrim same l s).modLane l f = raiseTrim same l (s.modLane l f) := by
  unfold raiseTrim; split <;> rfl

theorem setStartTrim_eq (l : LaneNo) (s : State) :
    setStartTrim l s = raiseTrim (startTrim (s.activeRecipe l) (s.lane l).trim = (s.lane l).trim) l
      (s.modLane l fun x => { x with trim := startTrim (s.activeRecipe l) (s.lane l).trim }) := by
  unfold setStartTrim raiseTrim
  dsimp only
  split
  · next h => rw [State.modLane, h, State.setLane_lane_eq]
  · rfl

/-- The state of a lane that has entered RUN, before the test of its coil's plan (R13). -/
def enteredRun (l : LaneNo) (s : State) : State :=
  State.raise .laneState (laneBit l)
    (raiseTrim (startTrim (s.activeRecipe l) (s.lane l).trim = (s.lane l).trim) l
      (s.setLane l ((s.lane l).entered s.line.mode (s.activeRecipe l))))

/-- The end of threading: the entry, and in ROPE mode the test of the fresh plan (R13, R137). -/
theorem threadingEnd_eq (l : LaneNo) (s : State) :
    threadingEnd l s = if s.line.mode = .rope then coilCutDueIfMet l (enteredRun l s) else enteredRun l s := by
  have hrecipe : (setLaneState l .run ((setStartTrim l s).modLane l Lane.restartWindow)).activeRecipe l
      = s.activeRecipe l :=
    (((Local.refl l s).setStartTrim.modLane Lane.restartWindow fun _ => rfl).setLaneState .run).activeRecipe
  unfold threadingEnd
  dsimp only
  by_cases hmode : s.line.mode = .rope
  · rw [if_pos hmode, if_pos hmode, freshPlan, hrecipe, setLaneState, setStartTrim_eq, raiseTrim_modLane,
      raiseTrim_modLane, raise_modLane, raiseTrim_modLane, State.modLane_modLane, State.modLane_modLane,
      State.modLane_modLane, enteredRun, Lane.entered, if_pos hmode]
    rfl
  · rw [if_neg hmode, if_neg hmode, setLaneState, setStartTrim_eq, raiseTrim_modLane, raiseTrim_modLane,
      State.modLane_modLane, State.modLane_modLane, enteredRun, Lane.entered, if_neg hmode]
    rfl

/-- The records beside the lane and the notices that the entry into RUN leaves. -/
theorem enteredRun_frame (l : LaneNo) (s : State) :
    enteredRun l s = { s.setLane l ((s.lane l).entered s.line.mode (s.activeRecipe l)) with
      ports := (enteredRun l s).ports } := by
  unfold enteredRun raiseTrim; split <;> rfl

theorem heard_enteredRun (l : LaneNo) (s : State) : Heard s (enteredRun l s) := by
  unfold enteredRun raiseTrim; split
  · exact (Heard.of_ports rfl).trans (heard_raise _ _ _)
  · exact ((Heard.of_ports rfl).trans (heard_raise _ _ _)).trans (heard_raise _ _ _)

theorem enteredRun_laneState (l : LaneNo) (s : State) : Shown .laneState l (enteredRun l s) := shown_raise_self _ _ _

theorem enteredRun_trim (h : startTrim (s.activeRecipe l) (s.lane l).trim ≠ (s.lane l).trim) :
    Shown .trim l (enteredRun l s) := by
  unfold enteredRun
  rw [raiseTrim, if_neg h]
  exact (shown_raise_self _ _ _).heard (heard_raise _ _ _)

@[simp] theorem enteredRun_lane (l : LaneNo) (s : State) :
    (enteredRun l s).lane l = (s.lane l).entered s.line.mode (s.activeRecipe l) := by
  rw [enteredRun_frame]; exact State.setLane_lane_self _ l _

/-- The test of the fresh plan at the entry into RUN. -/
theorem coilCutMet_enteredRun (hmode : s.line.mode = .rope) :
    coilCutMet l (enteredRun l s) = true ↔
      (s.lane l).coilStart + (s.activeRecipe l).coilM * 1000000 ≤ (s.lane l).tally / 256 - s.line.dCut * 1000 := by
  have hline : (enteredRun l s).line = s.line := by rw [enteredRun_frame]; rfl
  rw [coilCutMet_iff, enteredRun_lane, hline, hmode]
  simp [Lane.entered]

theorem threadingMet_iff (l : LaneNo) (s : State) : threadingMet l s = true ↔
    (s.lane l).state = .threading ∧ (s.activeRecipe l).threadMm * 1000 ≤ (s.lane l).tally / 256 := by
  simp only [threadingMet, Bool.and_eq_true, beq_iff_eq, decide_eq_true_eq]
  rfl

/-- Threading ends with no cut due: in NET mode, or with the cutter short of the fresh plan. -/
theorem threadingEnd_notDue (h : s.line.mode = .net ∨
    (s.lane l).tally / 256 - s.line.dCut * 1000 < (s.lane l).coilStart + (s.activeRecipe l).coilM * 1000000) :
    threadingEnd l s = enteredRun l s := by
  rw [threadingEnd_eq]
  split
  · next hmode =>
    refine if_neg ?_
    rw [coilCutMet_enteredRun hmode]
    obtain hnet | hlt := h
    · rw [hmode] at hnet; exact absurd hnet nofun
    · exact not_le.2 hlt
  · rfl

/-- Threading ends with a coil's cut due at once (R137). -/
theorem threadingEnd_due (hmode : s.line.mode = .rope)
    (h : (s.lane l).coilStart + (s.activeRecipe l).coilM * 1000000 ≤ (s.lane l).tally / 256 - s.line.dCut * 1000) :
    threadingEnd l s = coilCutDue l (enteredRun l s) := by
  rw [threadingEnd_eq, if_pos hmode]
  exact if_pos ((coilCutMet_enteredRun hmode).2 h)

/-- A coil's cut that falls due from a state that differs from `s` in the lane and the notices only. -/
theorem coilCutDue_after {u : State} {x : Lane} (hu : u = { s.setLane l x with ports := u.ports }) :
    coilCutDue l u =
      { s.setLane l x.dueNow with
        cuts := s.cuts.withDue (.coil l x.plan.reason) x.plan.planPos
          (cutIsLate u (.coil l x.plan.reason) x.plan.planPos)
        stops := s.stops.ifLate (cutIsLate u (.coil l x.plan.reason) x.plan.planPos)
        ports := (coilCutDue l u).ports } := by
  have hlane : u.lane l = x := by rw [hu]; exact s.setLane_lane_self l x
  have hset : u.setLane l x.dueNow = { s.setLane l x.dueNow with ports := u.ports } := by
    rw [hu]; simp [State.setLane]
  have hcuts : u.cuts = s.cuts := (congrArg State.cuts hu :)
  have hstops : u.stops = s.stops := (congrArg State.stops hu :)
  have hframe := coilCutDue_frame l u
  rw [hlane, hset, hcuts, hstops] at hframe
  exact hframe

/-- Settles O38: by whether the cutter has reached the fresh plan (R13, R69, R137). -/
theorem threadingEndsInRun : Obligations.ThreadingEndsInRun := by
  intro s l x r trim planned cutter late entered hthread hlength
  have hexec : exec (.threadingEnd l) s = .next (threadingEnd l s) :=
    congrArg Host.Outcome.next (if_pos ((threadingMet_iff l s).2 ⟨hthread, hlength⟩))
  refine ⟨fun h => ?short, fun hmode hle => ?due⟩
  case short => rw [hexec, threadingEnd_notDue h]; rfl
  case due =>
    rw [hexec, threadingEnd_due hmode hle]
    have hplan : ((s.lane l).entered s.line.mode (s.activeRecipe l)).plan =
        { state := .watching, planPos := planned, reason := .normal } := if_pos hmode
    have hlate : cutIsLate (enteredRun l s) (.coil l .normal) planned = late := by
      rw [cutIsLate_coil (l := l) (by simp [CutWhat.isCoilOf]), enteredRun_lane, enteredRun_frame]; rfl
    have hframe := coilCutDue_after (enteredRun_frame l s)
    have hcuts : (enteredRun l s).cuts = s.cuts := (congrArg State.cuts (enteredRun_frame l s) :)
    have hheard := heard_coilCutDue l (enteredRun l s)
    rw [hplan, hlate] at hframe
    refine ⟨_, rfl, (congrArg State.lanes hframe).trans ?lanes, (congrArg State.cuts hframe :),
      (congrArg State.stops hframe :),
      fun q => ⟨((enteredRun_laneState l s).heard hheard q).1, fun h => ((enteredRun_trim h).heard hheard q).1,
        fun h => (coilCutDue_stop ?late q).1, fun h => coilCutDue_cutDue (by rw [hcuts]; exact h) q⟩,
      (congrArg State.positions hframe :), (congrArg State.cals hframe :), (congrArg State.recipes hframe :),
      (congrArg State.marks hframe :), (congrArg State.line hframe :), (congrArg State.panel hframe :),
      (congrArg State.rows hframe :), (congrArg State.forcing hframe :), (congrArg State.inputs hframe :)⟩
    case lanes =>
      have hdue : ((s.lane l).entered s.line.mode (s.activeRecipe l)).dueNow =
          { entered.lane l with plan := { state := .due, planPos := planned, reason := .normal } } := by
        rw [Lane.dueNow, hplan, State.setLane_lane_self]; rfl
      rw [hdue]; rfl
    case late => rw [enteredRun_lane, hplan, hlate]; exact h

end Sys2Proof.Machine
end


section
/-! PROOFS. START_LANE (01_lanes_and_positions.md R11 to R13) and ASSIGN_RECIPE (06_recipes_and_patterns.md R105 to
R111): the checks in their order, and what an accepted command leaves. -/

namespace Sys2Proof.Machine

variable {s t : State} {l : LaneNo}

/-! ### The entry into RUN, whether or not a cut falls due -/

theorem threadingEnd_frame (l : LaneNo) (s : State) :
    { threadingEnd l s with lanes := s.lanes, cuts := s.cuts, stops := s.stops, ports := s.ports } = s := by
  rw [threadingEnd_eq]
  split
  · unfold coilCutDueIfMet
    split
    · rw [coilCutDue_after (enteredRun_frame l s)]; rfl
    · rw [enteredRun_frame]; rfl
  · rw [enteredRun_frame]; rfl

theorem heard_coilCutDueIfMet (l : LaneNo) (s : State) : Heard s (coilCutDueIfMet l s) := by
  unfold coilCutDueIfMet
  split
  · exact heard_coilCutDue l s
  · exact Heard.refl s

theorem heard_enteredRun_threadingEnd (l : LaneNo) (s : State) : Heard (enteredRun l s) (threadingEnd l s) := by
  rw [threadingEnd_eq]
  split
  · exact heard_coilCutDueIfMet _ _
  · exact Heard.refl _

theorem threadingEnd_laneState (l : LaneNo) (s : State) : Shown .laneState l (threadingEnd l s) :=
  (enteredRun_laneState l s).heard (heard_enteredRun_threadingEnd l s)

theorem threadingEnd_trim (h : startTrim (s.activeRecipe l) (s.lane l).trim ≠ (s.lane l).trim) :
    Shown .trim l (threadingEnd l s) := (enteredRun_trim h).heard (heard_enteredRun_threadingEnd l s)

/-! ### START_LANE -/

theorem Recipe.consistent_iff (r : Recipe) :
    r.consistent = true ↔ r.trimMin ≤ r.trimMax ∧ r.minCoilM ≤ r.coilM ∧ 1 ≤ r.patternLen := by
  simp [Recipe.consistent, and_assoc]

/-- The slot that a lane starts under (R11, R12). -/
def startSlot (s : State) (l : LaneNo) : SlotNo := if s.line.mode = .net then s.line.lineSlot else (s.lane l).slot

theorem startRecipe_eq (s : State) (l : LaneNo) : startRecipe s l = s.recipe (startSlot s l) := by
  unfold startRecipe startSlot; split <;> rfl

/-- In NET mode a lane outside the net set is refused (R11). -/
theorem outsideNet_iff (s : State) (l : LaneNo) :
    (s.line.mode = .net ∧ laneIn s.netSet l = false) ↔
      s.line.mode = .net ∧ (s.recipe (startSlot s l)).netWidth ≤ l.val := by
  refine and_congr_right fun hnet => ?_
  simp [State.netSet, State.lineRecipe, startSlot, hnet]

theorem serveStartLane_ofNat (l : LaneNo) (s : State) :
    serveStartLane [BitVec.ofNat 8 l.val] s =
      if (s.lane l).state ≠ .idle then refuse .state s
      else if onServicePosition s l = false then refuse .state s
      else if s.line.mode = .net ∧ laneIn s.netSet l = false then refuse .range s
      else if (startRecipe s l).consistent then accept (startLane l s)
      else refuse .range s := serveLane_ofNat l _ s

/-- The record of a lane in THREADING after an accepted START_LANE (R12). -/
def threadingRecord (s : State) (l : LaneNo) : Lane :=
  { startRecord s.line.mode s.line.lineSlot (s.lane l) with state := .threading }

/-- The state of a lane in THREADING after an accepted START_LANE (R12). -/
def startedLane (l : LaneNo) (s : State) : State :=
  State.raise .laneState (laneBit l) (s.setLane l (threadingRecord s l))

theorem startLane_eq (l : LaneNo) (s : State) : startLane l s = threadingEndIfMet l (startedLane l s) := by
  rw [startLane, setLaneState, State.modLane_modLane]; rfl

theorem startedLane_lane (l : LaneNo) (s : State) : (startedLane l s).lane l = threadingRecord s l :=
  State.setLane_lane_self s l _

theorem startedLane_activeRecipe (l : LaneNo) (s : State) :
    (startedLane l s).activeRecipe l = s.recipe (startSlot s l) := by
  rw [State.activeRecipe, startedLane_lane]; rfl

theorem threadingMet_startedLane (l : LaneNo) (s : State) :
    threadingMet l (startedLane l s) = true ↔ (s.recipe (startSlot s l)).threadMm = 0 := by
  rw [threadingMet_iff, startedLane_activeRecipe, startedLane_lane]
  simp [threadingRecord, startRecord]

/-- What a lane that starts into RUN at once leaves: the rest of its records, and the other lanes. -/
theorem startLane_frame (l : LaneNo) (s : State) :
    { startLane l s with lanes := s.lanes, cuts := s.cuts, stops := s.stops, ports := s.ports } = s := by
  have hstart : { startedLane l s with lanes := s.lanes, cuts := s.cuts, stops := s.stops, ports := s.ports } = s := rfl
  rw [startLane_eq]
  unfold threadingEndIfMet
  split
  · have hend := threadingEnd_frame l (startedLane l s)
    generalize threadingEnd l (startedLane l s) = u at hend ⊢
    rw [← hend] at hstart
    exact hstart
  · exact hstart

theorem startLane_lane_ne {m : LaneNo} (hm : m ≠ l) : (startLane l s).lane m = s.lane m := by
  have hstart : (startedLane l s).lane m = s.lane m := by
    exact (s.setLane_lane l m _).trans (if_neg hm)
  rw [startLane_eq, ((Local.refl l (startedLane l s)).threadingEndIfMet).lane m hm, hstart]

/-- The plan of a lane that starts into RUN at once (R137). -/
def startPlan (s : State) (l : LaneNo) : CoilPlan :=
  if s.line.mode = .net then (s.lane l).plan
  else
    { state := if (s.recipe (startSlot s l)).coilM = 0 then .due else .watching
      planPos := (s.recipe (startSlot s l)).coilM * 1000000, reason := .normal }

theorem startLane_atOnce (h : (s.recipe (startSlot s l)).threadMm = 0) :
    startLane l s = threadingEnd l (startedLane l s) := by
  rw [startLane_eq]; exact if_pos ((threadingMet_startedLane l s).2 h)

theorem entered_startedLane (l : LaneNo) (s : State) :
    ((startedLane l s).lane l).entered s.line.mode (s.recipe (startSlot s l)) =
      { threadingRecord s l with
        state := .run, trim := startTrim (s.recipe (startSlot s l)) (s.lane l).trim
        plan := if s.line.mode = .rope then
            { state := .watching, planPos := (s.recipe (startSlot s l)).coilM * 1000000, reason := .normal }
          else (s.lane l).plan } := by
  rw [startedLane_lane, Lane.entered]
  simp only [threadingRecord, startRecord, Lane.um, Nat.zero_add, Nat.zero_div]

/-- The lane that has started into RUN at once, and the cuts and stop reasons (R13, R137). -/
theorem startLane_run (h : (s.recipe (startSlot s l)).threadMm = 0) :
    (s.line.mode = .net ∨ 0 < (s.recipe (startSlot s l)).coilM →
      (startLane l s).cuts = s.cuts ∧ (startLane l s).stops = s.stops) ∧
    (startLane l s).lane l = { threadingRecord s l with
      state := .run, trim := startTrim (s.recipe (startSlot s l)) (s.lane l).trim, plan := startPlan s l } := by
  have hentered := entered_startedLane l s
  have hrecipe := startedLane_activeRecipe l s
  have hcoil : ((startedLane l s).lane l).coilStart + ((startedLane l s).activeRecipe l).coilM * 1000000 =
      (s.recipe (startSlot s l)).coilM * 1000000 := by
    rw [hrecipe, startedLane_lane]; exact Nat.zero_add _
  have hcutter : ((startedLane l s).lane l).tally / 256 - (startedLane l s).line.dCut * 1000 = 0 := by
    rw [startedLane_lane]; show 0 / 256 - _ = 0; omega
  rw [startLane_atOnce h]
  by_cases hdue : s.line.mode = .rope ∧ (s.recipe (startSlot s l)).coilM = 0
  · obtain ⟨hmode, hzero⟩ := hdue
    rw [threadingEnd_due (s := startedLane l s) hmode (by rw [hcoil, hcutter, hzero])]
    refine ⟨fun hn => ?_, ?_⟩
    · rw [hmode, hzero] at hn
      exact absurd hn (by simp)
    · have hframe := congrArg (fun u : State => u.lane l) (coilCutDue_after (enteredRun_frame l (startedLane l s)))
      refine hframe.trans ((State.setLane_lane_self _ l _).trans ?_)
      rw [hrecipe, show (startedLane l s).line.mode = s.line.mode from rfl, hentered, startPlan, if_pos hmode,
        if_neg (by simp [hmode]), if_pos hzero]
      rfl
  · rw [threadingEnd_notDue (s := startedLane l s)]
    · refine ⟨fun _ => ⟨?_, ?_⟩, ?_⟩
      · rw [enteredRun_frame]; rfl
      · rw [enteredRun_frame]; rfl
      · rw [enteredRun_lane, hrecipe, show (startedLane l s).line.mode = s.line.mode from rfl, hentered, startPlan]
        by_cases hmode : s.line.mode = .rope
        · rw [if_pos hmode, if_neg (by simp [hmode]), if_neg fun hzero => hdue ⟨hmode, hzero⟩]
        · have hnet : s.line.mode = .net := by cases hm : s.line.mode <;> simp_all
          rw [if_neg hmode, if_pos hnet]
    · by_cases hmode : s.line.mode = .rope
      · right
        rw [hcoil, hcutter]
        have : (s.recipe (startSlot s l)).coilM ≠ 0 := fun hzero => hdue ⟨hmode, hzero⟩
        omega
      · left
        show s.line.mode = .net
        cases hm : s.line.mode <;> simp_all

/-- Settles O23: the checks in their order, and the lane in THREADING or, with a threading length of 0, in RUN. -/
theorem startLaneChecksAndStarts : Obligations.StartLaneChecksAndStarts := by
  intro s p b hr
  refine ⟨fun hb => ?range, fun l hl => ?lane⟩
  case range => rw [exec_startLane_ready b hr, serveStartLane, serveLane_range hb]; rfl
  case lane =>
    subst hl
    rw [exec_startLane_ready _ hr, serveStartLane_ofNat]
    intro x slot r placed outside sound
    have hplaced : onServicePosition s l = true ↔ placed := onServicePosition_iff s l
    have houtside : (s.line.mode = .net ∧ laneIn s.netSet l = false) ↔ outside := outsideNet_iff s l
    have hsound : (startRecipe s l).consistent = true ↔ sound := by
      rw [startRecipe_eq]; exact Recipe.consistent_iff _
    refine ⟨fun h => ?state, fun hi hp h => ?refused, fun hi hp ho hs => ?accepted⟩
    case state =>
      by_cases hi : x.state = .idle
      · have hp : onServicePosition s l = false := Bool.eq_false_iff.2 (mt hplaced.1 (h.resolve_left (not_not.2 hi)))
        rw [if_neg (not_not.2 hi), if_pos hp]; rfl
      · rw [if_pos hi]; rfl
    case refused =>
      rw [if_neg (not_not.2 hi), if_neg (by rw [hplaced.2 hp]; exact Bool.noConfusion)]
      by_cases ho : outside
      · rw [if_pos (houtside.2 ho)]; rfl
      · rw [if_neg (mt houtside.1 ho), if_neg (mt hsound.1 (h.resolve_left ho))]; rfl
    case accepted =>
      rw [if_neg (not_not.2 hi), if_neg (by rw [hplaced.2 hp]; exact Bool.noConfusion), if_neg (mt houtside.1 ho),
        if_pos (hsound.2 hs)]
      refine ⟨fun hlong => ?threading, fun hzero => ?run⟩
      case threading =>
        have hstart : startLane l s = startedLane l s := by
          rw [startLane_eq]
          exact if_neg (mt (threadingMet_startedLane l s).1 (Nat.pos_iff_ne_zero.1 hlong))
        rw [hstart]; rfl
      case run =>
        have hframe := startLane_frame l s
        obtain ⟨hcuts, hlane⟩ := startLane_run (s := s) (l := l) hzero
        refine ⟨startLane l s, rfl, hcuts, hlane.trans rfl, fun q => ?notices, fun m hm => startLane_lane_ne hm,
          (congrArg State.positions hframe :), (congrArg State.cals hframe :), (congrArg State.recipes hframe :),
          (congrArg State.marks hframe :), (congrArg State.line hframe :), (congrArg State.panel hframe :),
          (congrArg State.rows hframe :), (congrArg State.forcing hframe :), (congrArg State.inputs hframe :)⟩
        case notices =>
          rw [hlane, startLane_atOnce (s := s) (l := l) hzero]
          have hstate := threadingEnd_laneState l (startedLane l s) q
          refine ⟨hstate.1, hstate.2, fun htrim => (threadingEnd_trim ?_ q).1⟩
          rw [startedLane_activeRecipe, startedLane_lane]
          exact htrim

/-! ### ASSIGN_RECIPE -/

theorem heard_setStartTrim (l : LaneNo) (s : State) : Heard s (setStartTrim l s) := ((Local.refl l s).setStartTrim).heard

theorem heard_switchLane (l : LaneNo) (i : SlotNo) (s : State) : Heard s (switchLane l i s) := by
  have htake : Heard s (s.modLane l (Lane.takeSlot i)) := Heard.of_ports rfl
  unfold switchLane
  dsimp only
  split
  · exact (htake.trans (heard_setStartTrim l _)).trans (Heard.of_ports rfl)
  · exact htake.trans (heard_setStartTrim l _)
  · exact htake.trans (heard_setStartTrim l _)
  all_goals exact htake

/-- A lane whose trim a switch changed is shown with TRIM (R70). -/
theorem setStartTrim_shown (h : ((setStartTrim l s).lane l).trim ≠ (s.lane l).trim) : Shown .trim l (setStartTrim l s) := by
  unfold setStartTrim at h ⊢
  dsimp only at h ⊢
  split
  · next heq => rw [if_pos heq] at h; exact absurd rfl h
  · exact shown_raise_self _ _ _

theorem switchLane_shown {i : SlotNo} (h : ((switchLane l i s).lane l).trim ≠ (s.lane l).trim) :
    Shown .trim l (switchLane l i s) := by
  have htake : ((s.modLane l (Lane.takeSlot i)).lane l).trim = (s.lane l).trim := by
    rw [State.modLane_lane_self]; rfl
  unfold switchLane at h ⊢
  dsimp only at h ⊢
  split
  · next hrun =>
    rw [hrun] at h
    dsimp only at h
    rw [State.modLane_lane_self] at h
    exact (setStartTrim_shown (fun heq => h (heq.trans htake))).heard (Heard.of_ports rfl)
  · next hrun => rw [hrun] at h; exact setStartTrim_shown fun heq => h (heq.trans htake)
  · next hrun => rw [hrun] at h; exact setStartTrim_shown fun heq => h (heq.trans htake)
  all_goals next hrun => rw [hrun] at h; exact absurd htake h

theorem switchLane_frame (l : LaneNo) (i : SlotNo) (s : State) :
    { switchLane l i s with lanes := s.lanes, ports := s.ports } = s := by
  unfold switchLane setStartTrim
  dsimp only
  (repeat' split) <;> rfl

theorem heard_forLanes (f : LaneNo → State → State) (hf : ∀ l s, Heard s (f l s)) (ls : List LaneNo) (s : State) :
    Heard s (forLanes ls f s) := by
  induction ls generalizing s with
  | nil => exact Heard.refl s
  | cons l ls ih => exact (hf l s).trans (ih (f l s))

/-- Every lane whose trim a switch over a list changed is shown with TRIM. -/
theorem forLanes_switchLane_shown (i : SlotNo) (ls : List LaneNo) (s : State) (m : LaneNo)
    (h : ((forLanes ls (fun l t => switchLane l i t) s).lane m).trim ≠ (s.lane m).trim) :
    Shown .trim m (forLanes ls (fun l t => switchLane l i t) s) := by
  induction ls generalizing s with
  | nil => exact absurd rfl h
  | cons l ls ih =>
    by_cases hm : ((switchLane l i s).lane m).trim = (s.lane m).trim
    · exact ih (switchLane l i s) fun heq => h (heq.trans hm)
    · have hml : m = l := by
        by_contra hne
        exact hm (by rw [switchLane_lane_ne hne])
      subst hml
      exact (switchLane_shown hm).heard (heard_forLanes _ (fun l t => heard_switchLane l i t) ls _)

/-- What a line switch changes: the line slots, the lanes and the notices (R107, R110). -/
theorem lineSwitch_frame (i : SlotNo) (s : State) :
    { lineSwitch i s with lanes := s.lanes, line := s.line, ports := s.ports } = s := by
  have hkeep := forLanes_keeps (fun t : State => { t with lanes := s.lanes, line := s.line, ports := s.ports })
    (fun l t => switchLane l i t)
    (fun l t => (congrArg (fun u : State => { u with lanes := s.lanes, line := s.line, ports := s.ports })
      (switchLane_frame l i t) :)) (lanesInUse s) { s with line := { s.line with lineSlot := i, pendingLineSlot := none } }
  exact hkeep

theorem lineSwitch_recipeNotice (i : SlotNo) (s : State) :
    Raised .recipe (lineSwitch i s) ∧ ∀ l, (s.lane l).state ≠ .idle → Shown .recipe l (lineSwitch i s) :=
  ⟨raised_raise _ _ _, fun l hl => shown_raise ((laneIn_laneSetOf _ l).2 ((mem_lanesInUse s l).2 hl)) _⟩

theorem lineSwitch_trim {i : SlotNo} (h : ((lineSwitch i s).lane l).trim ≠ (s.lane l).trim) :
    Shown .trim l (lineSwitch i s) :=
  (forLanes_switchLane_shown i (lanesInUse s)
    { s with line := { s.line with lineSlot := i, pendingLineSlot := none } } l h).heard (heard_raise _ _ _)

theorem heard_lineSwitch (i : SlotNo) (s : State) : Heard s (lineSwitch i s) :=
  (Heard.trans (Heard.of_ports rfl) (heard_forLanes _ (fun l t => heard_switchLane l i t) (lanesInUse s)
    { s with line := { s.line with lineSlot := i, pendingLineSlot := none } })).trans (heard_raise _ _ _)

theorem assignTarget_ofNat (l : LaneNo) : assignTarget (BitVec.ofNat 8 l.val) = some (.lane l) := by
  have hne : BitVec.ofNat 8 l.val ≠ 0x80#8 := by revert l; decide
  simp [assignTarget, hne]

theorem assignTarget_none {b : Byte} (h : 8 ≤ b.toNat) (hb : b ≠ 0x80) : assignTarget b = none := by
  rw [assignTarget, if_neg hb, laneNo_none h]; rfl

theorem assignNow_none {d : Byte} (h : 2 ≤ d.toNat) : assignNow d = none := by
  have h0 : d ≠ 0 := by rintro rfl; simp at h
  have h1 : d ≠ 1 := by rintro rfl; simp at h
  rw [assignNow, if_neg h0, if_neg h1]

theorem serveAssignRecipe_range {b c d : Byte} (h : (8 ≤ b.toNat ∧ b ≠ 0x80) ∨ 4 ≤ c.toNat ∨ 2 ≤ d.toNat) (s : State) :
    serveAssignRecipe [b, c, d] s = refuse .range s := by
  unfold serveAssignRecipe
  split
  · next t slot now ht hslot hnow =>
    obtain ⟨hb, hne⟩ | hc | hd := h
    · exact absurd ht (by simp [byteAt, assignTarget_none hb hne])
    · exact absurd hslot (by simp [byteAt, slotNo_none hc])
    · exact absurd hnow (by simp [byteAt, assignNow_none hd])
  · rfl

theorem serveAssignRecipe_eq {b c d : Byte} {t : AssignTarget} {i : SlotNo} {now : Bool} (ht : assignTarget b = some t)
    (hi : slotNo c = some i) (hnow : assignNow d = some now) (s : State) :
    serveAssignRecipe [b, c, d] s =
      if wrongMode s t then refuse .state s
      else if (s.recipe i).consistent = false then refuse .range s
      else if now then (if nowRefused s t then refuse .state s else accept (assignAtOnce t i s))
      else accept (assignAtCut t i s) := by
  have hb : byteAt [b, c, d] 0 = b := rfl
  have hc : byteAt [b, c, d] 1 = c := rfl
  have hd : byteAt [b, c, d] 2 = d := rfl
  simp only [serveAssignRecipe, hb, hc, hd, ht, hi, hnow]

theorem wrongMode_lane (s : State) (l : LaneNo) : wrongMode s (.lane l) = true ↔ s.line.mode = .net := by
  simp [wrongMode]

theorem wrongMode_line (s : State) : wrongMode s .line = true ↔ s.line.mode = .rope := by
  simp [wrongMode]

theorem LineMode.ne_net {m : LineMode} (h : m = .rope) : m ≠ .net := by rw [h]; exact nofun

theorem LineMode.ne_rope {m : LineMode} (h : m = .net) : m ≠ .rope := by rw [h]; exact nofun

/-- Settles O31: the checks in their order, and the slot named or taken (R105 to R108, R111). -/
theorem assignRecipeNamesTheSlot : Obligations.AssignRecipeNamesTheSlot := by
  intro s p b c d hr
  rw [exec_assignRecipe_ready b c d hr]
  refine ⟨fun h => ?range, fun i hc hd => ?named⟩
  case range => rw [serveAssignRecipe_range h]; rfl
  case named =>
    intro r sound
    have hsound : ¬ (s.recipe i).consistent = false ↔ sound := by
      rw [Bool.not_eq_false]; exact Recipe.consistent_iff _
    have hslot : slotNo c = some i := by rw [hc, slotNo_ofNat]
    have hserve : ∀ t now, assignTarget b = some t → assignNow d = some now → serveAssignRecipe [b, c, d] s = _ :=
      fun t now ht hnow => serveAssignRecipe_eq ht hslot hnow s
    have hzero : assignNow 0x00 = some true := rfl
    have hone : assignNow 0x01 = some false := rfl
    have hany : ∃ now, assignNow d = some now := by
      obtain rfl | rfl := hd
      · exact ⟨true, hzero⟩
      · exact ⟨false, hone⟩
    obtain ⟨now, hnow⟩ := hany
    refine ⟨fun l hb => ?lane, fun hb => ?line⟩
    case lane =>
      have ht : assignTarget b = some (.lane l) := by rw [hb, assignTarget_ofNat]
      refine ⟨fun hm => ?_, fun hm hs => ?_, fun hm hs hd hi => ?_, fun hm hs hd hi => ?_, fun hm hs hd => ?_⟩
      · rw [hserve _ now ht hnow, if_pos ((wrongMode_lane s l).2 hm)]; rfl
      · rw [hserve _ now ht hnow, if_neg (mt (wrongMode_lane s l).1 (LineMode.ne_net hm)),
          if_pos (not_not.1 (mt hsound.1 hs))]; rfl
      all_goals
        subst hd
        rw [hserve _ _ ht (by rfl), if_neg (mt (wrongMode_lane s l).1 (LineMode.ne_net hm)), if_neg (hsound.2 hs)]
      · rw [if_pos rfl, if_pos (by simpa [nowRefused] using hi)]; rfl
      · rw [if_pos rfl, if_neg (by simpa [nowRefused] using hi)]; rfl
      · rw [if_neg Bool.false_ne_true]; rfl
    case line =>
      have ht : assignTarget b = some .line := by rw [hb]; rfl
      refine ⟨fun hm => ?_, fun hm hs => ?_, fun hm hs hd hp => ?_, fun hm hs hd hp => ?_, fun hm hs hd => ?_⟩
      · rw [hserve _ now ht hnow, if_pos ((wrongMode_line s).2 hm)]; rfl
      · rw [hserve _ now ht hnow, if_neg (mt (wrongMode_line s).1 (LineMode.ne_rope hm)),
          if_pos (not_not.1 (mt hsound.1 hs))]; rfl
      all_goals
        subst hd
        rw [hserve _ _ ht (by rfl), if_neg (mt (wrongMode_line s).1 (LineMode.ne_rope hm)), if_neg (hsound.2 hs)]
      · rw [if_pos rfl, if_pos (by simpa [nowRefused, State.panelOpen] using hp)]; rfl
      · rw [if_pos rfl, if_neg (by simpa [nowRefused, State.panelOpen] using hp)]
        have hframe := lineSwitch_frame i s
        obtain ⟨hraised, hshown⟩ := lineSwitch_recipeNotice i s
        refine ⟨lineSwitch i s, rfl, lineSwitch_line i s, fun l => ?lane, fun q => ⟨hraised q, fun l hl =>
            ⟨(hshown l hl q).2, fun htrim => lineSwitch_trim htrim q⟩⟩,
          (congrArg State.positions hframe :), (congrArg State.cals hframe :), (congrArg State.recipes hframe :),
          (congrArg State.marks hframe :), (congrArg State.panel hframe :), (congrArg State.rows hframe :),
          (congrArg State.cuts hframe :), (congrArg State.stops hframe :), (congrArg State.forcing hframe :),
          (congrArg State.inputs hframe :)⟩
        rw [lineSwitch_lane]
        by_cases hidle : (s.lane l).state = .idle
        · rw [if_neg (not_not.2 hidle), if_pos hidle]
        · rw [if_pos hidle, if_neg hidle]
      · rw [if_neg Bool.false_ne_true]; rfl

end Sys2Proof.Machine
end


section
/-! PROOFS. Counts of a position's wheel (02_length_tallies.md R24 to R31): the tally, the calibration's sum, the tests
that follow, and the ceiling. -/

namespace Sys2Proof.Machine

variable {s t : State} {l : LaneNo} {k : PosNo}

/-! ### A count before its events -/

/-- A wheel count at the decoder and the calibration record (R24, R45, R47). -/
def counted (d : Direction) (k : PosNo) (s : State) : State :=
  calCount k (directionSign d) (s.modWheel k (pairStep d))

theorem counted_eq (d : Direction) (k : PosNo) (s : State) :
    counted d k s =
      { s with
        cals := if (s.cal k).counting then s.cals.set k { s.cal k with nRun := (s.cal k).nRun + directionSign d } else s.cals
        inputs := (s.modWheel k (pairStep d)).inputs } := by
  unfold counted calCount
  rw [State.modWheel_cal]
  split <;> rfl

theorem counted_cal (d : Direction) (k j : PosNo) (s : State) :
    (counted d k s).cal j =
      if j = k ∧ (s.cal k).counting = true then { s.cal k with nRun := (s.cal k).nRun + directionSign d }
      else s.cal j := by
  unfold counted calCount
  rw [State.modWheel_cal]
  by_cases hc : (s.cal k).counting = true
  · rw [if_pos hc, State.modCal_cal]
    by_cases hj : j = k
    · subst hj; rw [if_pos rfl, if_pos ⟨rfl, hc⟩]; rfl
    · rw [if_neg hj, if_neg fun h => hj h.1]; rfl
  · rw [if_neg hc, if_neg fun h => hc h.2]; rfl

theorem wheelCount_eq (d : Direction) (k : PosNo) (s : State) :
    wheelCount d k s = atMappedLane k (laneCount d (s.position k).k) (counted d k s) := rfl

theorem counted_position (d : Direction) (k j : PosNo) (s : State) : (counted d k s).position j = s.position j := by
  rw [counted_eq]; rfl

theorem counted_lane (d : Direction) (k : PosNo) (s : State) (m : LaneNo) : (counted d k s).lane m = s.lane m := by
  rw [counted_eq]; rfl

theorem wheelCount_none (d : Direction) (h : (s.position k).mappedLane = none) : wheelCount d k s = counted d k s := by
  rw [wheelCount_eq, atMappedLane, counted_position, h]

theorem wheelCount_some (d : Direction) (h : (s.position k).mappedLane = some l) :
    wheelCount d k s = laneCount d (s.position k).k l (counted d k s) := by
  rw [wheelCount_eq, atMappedLane, counted_position, h]

theorem counts_iff (x : LaneState) : x.counts = true ↔ x ≠ .idle := by cases x <;> simp [LaneState.counts]

theorem wheelCount_idle (d : Direction) (h : (s.position k).mappedLane = some l) (hi : (s.lane l).state = .idle) :
    wheelCount d k s = counted d k s := by
  exact (wheelCount_some d h).trans (if_neg (by rw [counted_lane, hi]; exact Bool.false_ne_true))

theorem wheelCount_forward (h : (s.position k).mappedLane = some l) (hi : (s.lane l).state ≠ .idle) :
    wheelCount .forward k s = laneForward l (s.position k).k (counted .forward k s) := by
  rw [wheelCount_some .forward h, laneCount, counted_lane, if_pos ((counts_iff _).2 hi)]

theorem wheelCount_reverse (h : (s.position k).mappedLane = some l) (hi : (s.lane l).state ≠ .idle) :
    wheelCount .reverse k s = laneReverse l (s.position k).k (counted .reverse k s) := by
  rw [wheelCount_some .reverse h, laneCount, counted_lane, if_pos ((counts_iff _).2 hi)]

/-! ### The tally -/

/-- A lane's record with its tally. -/
def State.withTally (s : State) (l : LaneNo) (v : Nat) : State := s.setLane l { s.lane l with tally := v }

@[simp] theorem State.withTally_lane_self (s : State) (l : LaneNo) (v : Nat) :
    (s.withTally l v).lane l = { s.lane l with tally := v } := s.setLane_lane_self l _

theorem State.withTally_self (s : State) (l : LaneNo) : s.withTally l (s.lane l).tally = s := s.setLane_lane_eq l

/-- What a count leaves once the tally stands: an operation of the lane from the moved tally on (R27 to R30). -/
theorem Local.countPastCeiling (l : LaneNo) (s : State) :
    Local l (s.withTally l tallyCeiling) (Machine.countPastCeiling l s) := by
  have hrefl : Local l (s.withTally l tallyCeiling) (s.modLane l fun x => { x with tally := tallyCeiling }) := Local.refl l _
  unfold Machine.countPastCeiling
  dsimp only
  split
  · exact hrefl.tallyLimit
  · split
    · split
      · exact ((hrefl.useFree 1).windowEnd.tallyLimit).laneWatchers
      · exact (hrefl.useFree 1).tallyLimit.laneWatchers
    · exact hrefl.tallyLimit.laneWatchers

theorem Local.laneForward (l : LaneNo) (kf : Nat) (s : State) :
    Local l (s.withTally l (min tallyCeiling ((s.lane l).tally + kf))) (Machine.laneForward l kf s) := by
  unfold Machine.laneForward
  split
  · next h => rw [Nat.min_eq_right h]; exact (Local.refl l _).laneWatchers
  · next h => rw [Nat.min_eq_left (Nat.le_of_lt (not_le.1 h))]; exact countPastCeiling l s

theorem Local.laneReverse (l : LaneNo) (kf : Nat) (s : State) :
    Local l (s.withTally l ((s.lane l).tally - kf)) (Machine.laneReverse l kf s) := by
  unfold Machine.laneReverse
  split
  · next h =>
    rw [h, Nat.zero_sub, ← h, State.withTally_self]; exact Local.refl l s
  · exact (Local.refl l _).laneWatchers

/-- A wheel count, as its count at decoder and record and an operation of the mapped lane from its moved tally on. -/
theorem wheelCount_local (d : Direction) (h : (s.position k).mappedLane = some l) (hi : (s.lane l).state ≠ .idle) :
    Local l ((counted d k s).withTally l
      (match d with
        | .forward => min tallyCeiling ((s.lane l).tally + (s.position k).k)
        | .reverse => (s.lane l).tally - (s.position k).k)) (wheelCount d k s) := by
  cases d with
  | forward =>
    rw [wheelCount_forward h hi, ← counted_lane .forward k s]
    exact Local.laneForward l _ _
  | reverse =>
    rw [wheelCount_reverse h hi, ← counted_lane .reverse k s]
    exact Local.laneReverse l _ _

theorem counting_iff (c : CalRecord) :
    c.counting = true ↔ (c.state = .passA ∧ c.started = true) ∨ c.state = .passB := by
  simp [CalRecord.counting]

/-- The tallies, and the sum of a running pass, after a wheel count in a direction (R10, R26 to R29, R45, R47). -/
theorem wheelCount_tally (d : Direction) (k : PosNo) (s : State) :
    (∀ l, (s.position k).mappedLane = some l → (s.lane l).state ≠ .idle → ((wheelCount d k s).lane l).tally =
      match d with
      | .forward => min tallyCeiling ((s.lane l).tally + (s.position k).k)
      | .reverse => (s.lane l).tally - (s.position k).k) ∧
    (∀ l, (s.position k).mappedLane ≠ some l ∨ (s.lane l).state = .idle → (wheelCount d k s).lane l = s.lane l) ∧
    ((s.cal k).counting = true → ((wheelCount d k s).cal k).nRun = (s.cal k).nRun + directionSign d) ∧
    (¬ (s.cal k).counting = true → ((wheelCount d k s).cal k).nRun = (s.cal k).nRun) := by
  have hsum : ((counted d k s).cal k).nRun =
      if (s.cal k).counting = true then (s.cal k).nRun + directionSign d else (s.cal k).nRun := by
    rw [counted_cal]
    by_cases hc : (s.cal k).counting = true
    · rw [if_pos ⟨rfl, hc⟩, if_pos hc]
    · rw [if_neg fun h => hc h.2, if_neg hc]
  have hplain : wheelCount d k s = counted d k s → _ := fun heq =>
    (⟨fun m => by rw [heq, counted_lane], by rw [heq]⟩ :
      (∀ m, (wheelCount d k s).lane m = s.lane m) ∧ ((wheelCount d k s).cal k).nRun = ((counted d k s).cal k).nRun)
  have hrun : ((wheelCount d k s).cal k).nRun = ((counted d k s).cal k).nRun → _ := fun heq =>
    (⟨fun hc => by rw [heq, hsum, if_pos hc], fun hc => by rw [heq, hsum, if_neg hc]⟩ :
      ((s.cal k).counting = true → ((wheelCount d k s).cal k).nRun = (s.cal k).nRun + directionSign d) ∧
      (¬ (s.cal k).counting = true → ((wheelCount d k s).cal k).nRun = (s.cal k).nRun))
  cases hmap : (s.position k).mappedLane with
  | none =>
    obtain ⟨hlane, hcal⟩ := hplain (wheelCount_none d hmap)
    exact ⟨fun l h => absurd h nofun, fun l _ => hlane l, hrun hcal⟩
  | some l =>
    by_cases hi : (s.lane l).state = .idle
    · obtain ⟨hlane, hcal⟩ := hplain (wheelCount_idle d hmap hi)
      exact ⟨fun m h hm => absurd (Option.some.inj h ▸ hi) hm, fun m _ => hlane m, hrun hcal⟩
    · have hlocal := wheelCount_local d hmap hi
      refine ⟨fun m h _ => ?_, fun m h => ?_, hrun (hlocal.nRun k)⟩
      · obtain rfl := Option.some.inj h
        rw [hlocal.tally, State.withTally_lane_self]
      · have hm : m ≠ l := by
          rintro rfl
          exact h.elim (fun hne => hne rfl) hi
        rw [hlocal.lane m hm, State.withTally, State.setLane_lane, if_neg hm, counted_lane]

/-- Settles O34: both directions of a count, and the lanes it does not reach (R10, R26 to R29). -/
theorem wheelCountMovesTheTally : Obligations.WheelCountMovesTheTally := by
  intro s k kf passing
  have hpassing : (s.cal k).counting = true ↔ passing := counting_iff _
  have hdirection : ∀ d, ∃ t : State, (Host.Outcome.next (wheelCount d k s) : Host.Outcome State Fault Refusal) = .next t ∧
      (∀ l, (s.position k).mappedLane = some l → (s.lane l).state ≠ .idle → (t.lane l).tally =
        match d with
        | .forward => min tallyCeiling ((s.lane l).tally + kf)
        | .reverse => (s.lane l).tally - kf) ∧
      (∀ l, (s.position k).mappedLane ≠ some l ∨ (s.lane l).state = .idle → t.lane l = s.lane l) ∧
      (passing → (t.cal k).nRun = (s.cal k).nRun + directionSign d) ∧
      (¬ passing → (t.cal k).nRun = (s.cal k).nRun) := fun d => by
    rw [← hpassing]
    exact ⟨_, rfl, wheelCount_tally d k s⟩
  exact ⟨hdirection .forward, hdirection .reverse⟩

end Sys2Proof.Machine
end


section
/-! PROOFS. The tests that follow a wheel count (02_length_tallies.md R30, R31, R144). -/

namespace Sys2Proof.Machine

variable {s t : State} {l : LaneNo} {k : PosNo}

/-- The tests of a lane's watchers up to the late test, in their order (R30). -/
def laneTests (l : LaneNo) (s : State) : State :=
  coilCutDueIfMet l (spliceOverlongIfMet l (windowEndIfMet l (threadingEndIfMet l s)))

theorem execAll_laneTests (l : LaneNo) (s : State) :
    execAll [.threadingEnd l, .windowEnd l, .spliceOverlong l, .coilCutDue l] s = .next (laneTests l s) := rfl

theorem Local.laneTests (l : LaneNo) (s : State) : Local l s (laneTests l s) :=
  (Local.refl l s).threadingEndIfMet.windowEndIfMet.spliceOverlongIfMet.coilCutDueIfMet

/-- A due position past the allowance of a lane's recipe, at the lane's cutter (R144). -/
def pastAllowance (s : State) (l : LaneNo) (due : Nat) : Bool :=
  decide (due + (s.activeRecipe l).overlengthMm * 1000 < s.cutterCoord l)

/-- The watchers make their tests, and then the late test of the lane's cuts by the lane's cutter (R30, R144). -/
theorem laneWatchers_eq (l : LaneNo) (s : State) :
    laneWatchers l s = (laneTests l s).lateTested (CutWhat.isCoilOf l) (pastAllowance s l) (laneBit l) := by
  have hlocal := Local.laneTests l s
  refine retestLate_eq (s := laneTests l s) (fun d _ h => ?_) fun d _ h => lanes_coil h
  obtain ⟨r, hr⟩ := (isCoilOf_iff d.what l).1 h
  rw [hr]
  show decide (d.duePos + ((laneTests l s).activeRecipe l).overlengthMm * 1000 < (laneTests l s).cutterCoord l) = _
  rw [hlocal.activeRecipe, hlocal.cutterCoord]
  rfl

theorem windowMet_iff (l : LaneNo) (s : State) : windowMet l s = true ↔ (s.lane l).state = .run ∧
    (s.lane l).windowStart + (s.activeRecipe l).windowMm * 1000 ≤ (s.lane l).tally / 256 := by
  simp only [windowMet, Bool.and_eq_true, beq_iff_eq, decide_eq_true_eq]
  rfl

theorem spliceOverlongMet_iff_exists (l : LaneNo) (s : State) : spliceOverlongMet l s = true ↔
    (s.lane l).state = .splicing ∧ ∃ a, (s.lane l).spliceStart = some a ∧
      a + (s.activeRecipe l).spliceMaxMm * 1000 < (s.lane l).tally / 256 := by
  cases ha : (s.lane l).spliceStart with
  | none => simp [spliceOverlongMet, ha]
  | some a => simp [spliceOverlongMet_iff ha]

/-- A count that meets no test leaves the lane's tests without effect. -/
theorem laneTests_none (hthread : ¬ threadingMet l s = true) (hwindow : ¬ windowMet l s = true)
    (hsplice : ¬ spliceOverlongMet l s = true) (hcoil : ¬ coilCutMet l s = true) : laneTests l s = s := by
  rw [laneTests, threadingEndIfMet, if_neg hthread, windowEndIfMet, if_neg hwindow, spliceOverlongIfMet,
    if_neg hsplice, coilCutDueIfMet, if_neg hcoil]

theorem laneForward_below {kf : Nat} (h : (s.lane l).tally + kf ≤ tallyCeiling) :
    laneForward l kf s = laneWatchers l (s.withTally l ((s.lane l).tally + kf)) := if_pos h

theorem laneReverse_moved {kf : Nat} (h : 0 < (s.lane l).tally) :
    laneReverse l kf s = laneWatchers l (s.withTally l ((s.lane l).tally - kf)) := if_neg (Nat.pos_iff_ne_zero.1 h)

theorem laneReverse_still {kf : Nat} (h : (s.lane l).tally = 0) : laneReverse l kf s = s := if_pos h

/-- A count that moved the tally: the lane's tests from there on, and the late test; where no test is met, the late
test alone (R30, R31). -/
theorem moved_count (d : Direction) (k : PosNo) (l : LaneNo) (after : Nat) (s : State) :
    let x := s.lane l
    let r := s.recipe x.slot
    let um := after / 256
    let past := fun due : Nat => decide (due + r.overlengthMm * 1000 < um - s.line.dCut * 1000)
    let bare := (counted d k s).withTally l after
    (∃ u : State, execAll [.threadingEnd l, .windowEnd l, .spliceOverlong l, .coilCutDue l] bare = .next u ∧
      Host.Outcome.next (laneWatchers l bare) = (.next (u.lateTested (CutWhat.isCoilOf l) past (laneBit l)) :
        Host.Outcome State Fault Refusal)) ∧
    (¬ (x.state = .threading ∧ r.threadMm * 1000 ≤ um) →
      ¬ (x.state = .run ∧ x.windowStart + r.windowMm * 1000 ≤ um) →
      ¬ (x.state = .splicing ∧ ∃ a, x.spliceStart = some a ∧ a + r.spliceMaxMm * 1000 < um) →
      ¬ ((x.state = .run ∨ x.state = .splicing ∨ x.state = .fault) ∧ s.line.mode = .rope ∧
        x.plan.state = .watching ∧ x.plan.planPos ≤ um - s.line.dCut * 1000) →
      Host.Outcome.next (laneWatchers l bare) = (.next (bare.lateTested (CutWhat.isCoilOf l) past (laneBit l)) :
        Host.Outcome State Fault Refusal)) := by
  intro x r um past bare
  have hlane : bare.lane l = { x with tally := after } := by
    rw [State.withTally_lane_self, counted_lane]
  have hrecipe : bare.activeRecipe l = r := by
    rw [State.activeRecipe, hlane]
    show (counted d k s).recipe x.slot = r
    rw [counted_eq]
    rfl
  have hline : bare.line = s.line := by
    show (counted d k s).line = s.line
    rw [counted_eq]
  have hpast : pastAllowance bare l = past := by
    funext due
    rw [pastAllowance, hrecipe, State.cutterCoord, hlane, hline]
    rfl
  rw [laneWatchers_eq, hpast]
  refine ⟨⟨laneTests l bare, execAll_laneTests l bare, rfl⟩, fun hthread hwindow hsplice hcoil => ?_⟩
  rw [laneTests_none]
  · rw [threadingMet_iff, hlane, hrecipe]; exact hthread
  · rw [windowMet_iff, hlane, hrecipe]; exact hwindow
  · rw [spliceOverlongMet_iff_exists, hlane, hrecipe]; exact hsplice
  · rw [coilCutMet_iff, hlane, hline]
    exact fun ⟨hplan, hstate, hmode, hpos⟩ => hcoil ⟨hstate, hmode, hplan, hpos⟩

/-- Settles O35: the watchers' tests and the late test, and the count that meets none (R30, R31, R144). -/
theorem countWithoutAnEventMovesOnlyTheTally : Obligations.CountWithoutAnEventMovesOnlyTheTally := by
  intro s k l forward
  cases forward with
  | true =>
    intro x r kf after um c passing bare moved hmap hi hle
    have hbare : bare = (counted .forward k s).withTally l after := by
      rw [State.withTally, counted_lane, counted_eq]; rfl
    have hexec : exec (.wheelCountForward k) s = .next (laneWatchers l bare) := by
      refine congrArg Host.Outcome.next ((wheelCount_forward hmap hi).trans ?_)
      rw [laneForward_below (by rw [counted_lane]; exact hle), counted_lane, hbare]
      rfl
    obtain ⟨htests, hnone⟩ := moved_count .forward k l after s
    rw [← hbare] at htests hnone
    exact ⟨nofun, fun _ => hexec ▸ htests, fun h1 h2 h3 h4 => hexec.trans (hnone h1 h2 h3 h4)⟩
  | false =>
    intro x r kf after um c passing bare moved hmap hi hle
    have hbare : bare = (counted .reverse k s).withTally l after := by
      rw [State.withTally, counted_lane, counted_eq]; rfl
    have hrun : exec (.wheelCountReverse k) s = .next (laneReverse l kf (counted .reverse k s)) :=
      congrArg Host.Outcome.next (wheelCount_reverse hmap hi)
    by_cases hzero : x.tally = 0
    · have hstill : exec (.wheelCountReverse k) s = .next bare := by
        rw [hrun, laneReverse_still (by rw [counted_lane]; exact hzero), hbare]
        have hafter : after = ((counted .reverse k s).lane l).tally := by
          rw [counted_lane]; show x.tally - kf = x.tally; omega
        rw [hafter, State.withTally_self]
      have hmoved : moved = false := by simp [moved, hzero]
      rw [hmoved]
      exact ⟨fun _ => hstill, nofun, fun _ _ _ _ => hstill⟩
    · have hexec : exec (.wheelCountReverse k) s = .next (laneWatchers l bare) := by
        rw [hrun, laneReverse_moved (by rw [counted_lane]; exact Nat.pos_of_ne_zero hzero), counted_lane, hbare]
        rfl
      obtain ⟨htests, hnone⟩ := moved_count .reverse k l after s
      rw [← hbare] at htests hnone
      have hmoved : moved = true := by simp [moved, Nat.pos_of_ne_zero hzero]
      rw [hmoved]
      exact ⟨nofun, fun _ => hexec ▸ htests, fun h1 h2 h3 h4 => hexec.trans (hnone h1 h2 h3 h4)⟩

end Sys2Proof.Machine
end


section
/-! PROOFS. What a window end measures, counts and decides (04_twist_measurement_and_trim.md R57 to R67). -/

namespace Sys2Proof.Machine

variable {s t u : State} {l : LaneNo}

/-! ### Operations of the marks -/

/-- `t` differs from `s` in the marks, the marks_lost of its lanes and the free values used. -/
structure MarksOnly (s t : State) : Prop where
  frame : { t with lanes := s.lanes, marks := s.marks, freeTick := s.freeTick } = s
  lane : ∀ m, t.lane m = { s.lane m with marksLost := (t.lane m).marksLost }

namespace MarksOnly

protected theorem refl (s : State) : MarksOnly s s := ⟨rfl, fun _ => rfl⟩

theorem trans (h : MarksOnly s t) (h' : MarksOnly t u) : MarksOnly s u where
  frame := by
    have h1 := h'.frame
    have h2 := h.frame
    rw [← h1] at h2
    exact h2
  lane m := by
    have h1 := h'.lane m
    rw [h.lane m] at h1
    exact h1

theorem stops (h : MarksOnly s t) : t.stops = s.stops := (congrArg State.stops h.frame :)
theorem cals (h : MarksOnly s t) : t.cals = s.cals := (congrArg State.cals h.frame :)
theorem cuts (h : MarksOnly s t) : t.cuts = s.cuts := (congrArg State.cuts h.frame :)
theorem ports (h : MarksOnly s t) : t.ports = s.ports := (congrArg State.ports h.frame :)
theorem line (h : MarksOnly s t) : t.line = s.line := (congrArg State.line h.frame :)
theorem panel (h : MarksOnly s t) : t.panel = s.panel := (congrArg State.panel h.frame :)
theorem rows (h : MarksOnly s t) : t.rows = s.rows := (congrArg State.rows h.frame :)
theorem positions (h : MarksOnly s t) : t.positions = s.positions := (congrArg State.positions h.frame :)
theorem recipes (h : MarksOnly s t) : t.recipes = s.recipes := (congrArg State.recipes h.frame :)
theorem forcing (h : MarksOnly s t) : t.forcing = s.forcing := (congrArg State.forcing h.frame :)
theorem inputs (h : MarksOnly s t) : t.inputs = s.inputs := (congrArg State.inputs h.frame :)
theorem recipe (h : MarksOnly s t) (i : SlotNo) : t.recipe i = s.recipe i := by rw [State.recipe, h.recipes, State.recipe]

theorem coilStart (h : MarksOnly s t) (m : LaneNo) : (t.lane m).coilStart = (s.lane m).coilStart := by rw [h.lane m]

theorem handMark (m : Mark) (s : State) : MarksOnly s (Machine.handMark m s) := by
  by_cases hfree : s.marksHeld < 96
  · rw [handMark_stored m hfree]; exact ⟨rfl, fun _ => rfl⟩
  · rw [handMark_full m (not_lt.1 hfree)]
    refine ⟨rfl, fun n => ?_⟩
    rw [State.modLane_lane]
    split <;> rfl

theorem foldl (ms : List Mark) (s : State) : MarksOnly s (ms.foldl (fun t m => Machine.handMark m t) s) := by
  induction ms generalizing s with
  | nil => exact .refl s
  | cons m ms ih => exact (handMark m s).trans (ih _)

theorem handMarks (ms : List Mark) (s : State) : MarksOnly s (Machine.handMarks ms s) := by
  unfold Machine.handMarks
  split
  · exact foldl ms s
  · exact (show MarksOnly s (s.useFree ms.length) from ⟨rfl, fun _ => rfl⟩).trans (foldl _ _)

theorem setMarkList (l : LaneNo) (ms : List Mark) (s : State) : MarksOnly s (s.setMarkList l ms) := ⟨rfl, fun _ => rfl⟩

theorem zoneStep (l : LaneNo) (lw : Nat) (sense : Option Sense) (s : State) :
    MarksOnly s (Machine.zoneStep l lw sense s) := by
  unfold Machine.zoneStep
  split
  · exact .refl s
  · dsimp only
    split
    · split
      · exact setMarkList _ _ s
      · exact handMarks _ s
    · exact handMarks _ s

end MarksOnly

/-! ### What a window end measures -/

/-- slip_run after a window end (R62). -/
def nextSlipRun (slip : Bool) (x : Lane) : Nat := if slip then min 3 (x.slipRun + 1) else 0

theorem slipStep_eq (l : LaneNo) (slip : Bool) (s : State) :
    slipStep l slip s = (if slip then handMarks [slipMark l (s.lane l)] s else s).modLane l fun x =>
      { x with slipRun := nextSlipRun slip x } := by
  cases slip with
  | true => simp only [slipStep, nextSlipRun, if_true]
  | false => simp only [slipStep, nextSlipRun, Bool.false_eq_true, if_false]

/-- The lane after the measurements of a window end, and the records that they leave (R57 to R63). -/
theorem windowMeasured_lane (l : LaneNo) (tpm lw : Nat) (b : BandResult) (slip : Bool) (s : State) :
    (windowMeasured l tpm lw b slip s).lane l =
      { s.lane l with
        lastTpm := some tpm, marksLost := ((windowMeasured l tpm lw b slip s).lane l).marksLost
        slipRun := nextSlipRun slip (s.lane l), counters := (s.lane l).counters.windowEnded b slip } := by
  have hzone := MarksOnly.zoneStep l lw b.sense (s.modLane l fun y => { y with lastTpm := some tpm })
  generalize hz : zoneStep l lw b.sense (s.modLane l fun y => { y with lastTpm := some tpm }) = z at hzone
  have hslip : MarksOnly z (if slip then handMarks [slipMark l (z.lane l)] z else z) := by
    split
    · exact MarksOnly.handMarks _ z
    · exact .refl z
  have hlane := (hzone.trans hslip).lane l
  simp only [windowMeasured, hz, slipStep_eq, State.modLane_lane_self]
  rw [hlane, State.modLane_lane_self]
  rfl

theorem windowMeasured_frame (l : LaneNo) (tpm lw : Nat) (b : BandResult) (slip : Bool) (s : State) :
    { windowMeasured l tpm lw b slip s with lanes := s.lanes, marks := s.marks, freeTick := s.freeTick } = s := by
  have hzone := MarksOnly.zoneStep l lw b.sense (s.modLane l fun y => { y with lastTpm := some tpm })
  generalize hz : zoneStep l lw b.sense (s.modLane l fun y => { y with lastTpm := some tpm }) = z at hzone
  have hslip : MarksOnly z (if slip then handMarks [slipMark l (z.lane l)] z else z) := by
    split
    · exact MarksOnly.handMarks _ z
    · exact .refl z
  have hframe := congrArg (fun v : State => { v with lanes := s.lanes }) (hzone.trans hslip).frame
  simp only [windowMeasured, hz, slipStep_eq]
  exact hframe

/-! ### What follows from it -/

/-- The period is not at its last window: the window is counted (R64). -/
theorem periodStep_early {b : BandResult} {slip : Bool} (h : (s.lane l).periodIndex + 1 ≠ (s.activeRecipe l).period) :
    periodStep l b slip s = s.modLane l (countWindow (s.activeRecipe l) b slip) :=
  if_neg (by rw [State.modLane_lane_self]; exact h)

/-- The period is at its last window: its decision is taken on the window counted (R64, R65). -/
theorem periodStep_last {b : BandResult} {slip : Bool} (h : (s.lane l).periodIndex + 1 = (s.activeRecipe l).period) :
    periodStep l b slip s = periodDecision l (s.modLane l (countWindow (s.activeRecipe l) b slip)) :=
  if_pos (by rw [State.modLane_lane_self]; exact h)

theorem periodDecision_none (h : wantedStep (s.activeRecipe l) (s.lane l) = 0) :
    periodDecision l s = s.modLane l fun y => { y.clearPeriod with limitStrike := false } := by
  unfold periodDecision
  dsimp only
  rw [if_pos h, State.modLane_modLane]

theorem periodDecision_inside (h : wantedStep (s.activeRecipe l) (s.lane l) ≠ 0)
    (hin : (s.activeRecipe l).trimMin ≤ (s.lane l).trim + wantedStep (s.activeRecipe l) (s.lane l) ∧
      (s.lane l).trim + wantedStep (s.activeRecipe l) (s.lane l) ≤ (s.activeRecipe l).trimMax) :
    periodDecision l s = State.raise .trim (laneBit l) (s.modLane l fun y =>
      { y.clearPeriod with trim := y.trim + wantedStep (s.activeRecipe l) (s.lane l), limitStrike := false }) := by
  unfold periodDecision
  dsimp only
  rw [if_neg h, if_pos hin, State.modLane_modLane]
  rfl

/-- The state of a lane whose wanted step is blocked: a strike, with TRIM (R66, R67). -/
def struck (l : LaneNo) (s : State) : State :=
  State.raise .trim (laneBit l) (s.modLane l fun y => { y.clearPeriod with trimLimited := true, limitStrike := true })

theorem periodDecision_blocked (h : wantedStep (s.activeRecipe l) (s.lane l) ≠ 0)
    (hin : ¬ ((s.activeRecipe l).trimMin ≤ (s.lane l).trim + wantedStep (s.activeRecipe l) (s.lane l) ∧
      (s.lane l).trim + wantedStep (s.activeRecipe l) (s.lane l) ≤ (s.activeRecipe l).trimMax)) :
    periodDecision l s =
      if (s.lane l).limitStrike then faultEntry l .trimLimit true (struck l s) else struck l s := by
  unfold periodDecision
  dsimp only
  rw [if_neg h, if_neg hin, State.modLane_modLane]
  rfl

theorem leaveForFault_run (atEnd : Bool) (h : (s.lane l).state = .run) :
    leaveForFault l atEnd s = s.modLane l fun x => if atEnd then x.clearPeriod else x.discardWindow := by
  rw [leaveForFault, h]

theorem reopenWindow_run (h : (s.lane l).state = .run) : reopenWindow l s = s.modLane l Lane.openWindow := if_pos h

theorem reopenWindow_fault (h : (s.lane l).state = .fault) : reopenWindow l s = s := if_neg (by rw [h]; exact nofun)

/-- The fields of a lane that the steps after its measurement leave. -/
def Lane.measured (x : Lane) :
    (Nat × Option FaultCause × Nat × Option Nat) × Nat × Counters × CoilPlan × Bool :=
  ((x.tally, x.faultCause, x.windowStart, x.lastTpm), x.slipRun, x.counters, x.plan, x.marksLost)

/-- What the steps between the measurement and a new window leave: the lane is in RUN, and the records named stand. -/
structure RunKept (l : LaneNo) (s t : State) : Prop where
  run : (t.lane l).state = .run
  measured : (t.lane l).measured = (s.lane l).measured
  stops : t.stops = s.stops
  cals : t.cals = s.cals
  marks : t.marks = s.marks
  cuts : t.cuts = s.cuts
  of : Local l s t

namespace RunKept

protected theorem refl (h : (s.lane l).state = .run) : RunKept l s s := ⟨h, rfl, rfl, rfl, rfl, rfl, .refl l s⟩

theorem modLane (h : RunKept l s t) (f : Lane → Lane)
    (hf : ∀ x, (f x).state = x.state ∧ (f x).measured = x.measured ∧ (f x).berth = x.berth) :
    RunKept l s (t.modLane l f) where
  run := by rw [State.modLane_lane_self, (hf _).1, h.run]
  measured := by rw [State.modLane_lane_self, (hf _).2.1, h.measured]
  stops := h.stops
  cals := h.cals
  marks := h.marks
  cuts := h.cuts
  of := h.of.modLane f fun x => (hf x).2.2

theorem raise (h : RunKept l s t) (k : NoticeKind) (ls : LaneSet) : RunKept l s (State.raise k ls t) :=
  ⟨h.run, h.measured, h.stops, h.cals, h.marks, h.cuts, h.of.raise k ls⟩

theorem countWindow (h : RunKept l s t) (r : Recipe) (b : BandResult) (slip : Bool) :
    RunKept l s (t.modLane l (Machine.countWindow r b slip)) :=
  h.modLane _ fun _ => ⟨rfl, rfl, rfl⟩

theorem clearPeriod (h : RunKept l s t) (strike : Bool) :
    RunKept l s (t.modLane l fun y => { y.clearPeriod with limitStrike := strike }) :=
  h.modLane (fun y => { y.clearPeriod with limitStrike := strike }) fun _ => ⟨rfl, rfl, rfl⟩

theorem trimStepped (h : RunKept l s t) (d : Int) : RunKept l s
    (t.modLane l fun y => { y.clearPeriod with trim := y.trim + d, limitStrike := false }) :=
  h.modLane (fun y => { y.clearPeriod with trim := y.trim + d, limitStrike := false }) fun _ => ⟨rfl, rfl, rfl⟩

theorem struck (h : RunKept l s t) : RunKept l s (Machine.struck l t) :=
  (h.modLane (fun y => { y.clearPeriod with trimLimited := true, limitStrike := true }) fun _ => ⟨rfl, rfl, rfl⟩).raise
    .trim (laneBit l)

end RunKept

/-- What follows the measurements of a window end in RUN: a new window, or an entry into FAULT (R57, R19). -/
theorem windowClosed_cases (hrun : (s.lane l).state = .run) (b : BandResult) (slip : Bool) :
    ∃ u, RunKept l s u ∧ (windowClosed l b slip s = u.modLane l Lane.openWindow ∨
      ∃ cause, windowClosed l b slip s = faultEntry l cause true u) := by
  by_cases hslip : 3 ≤ (s.lane l).slipRun
  · exact ⟨s, .refl hrun, .inr ⟨.wheelSlip, if_pos hslip⟩⟩
  have ht : windowClosed l b slip s = reopenWindow l (periodStep l b slip s) := if_neg hslip
  rw [ht]
  have hopen : ∀ {u : State}, RunKept l s u →
      ∃ v, RunKept l s v ∧ (reopenWindow l u = v.modLane l Lane.openWindow ∨
        ∃ cause, reopenWindow l u = faultEntry l cause true v) :=
    fun h => ⟨_, h, .inl (reopenWindow_run h.run)⟩
  have hcount := (RunKept.refl hrun).countWindow (s.activeRecipe l) b slip
  by_cases hlast : (s.lane l).periodIndex + 1 = (s.activeRecipe l).period
  · rw [periodStep_last hlast]
    generalize s.modLane l (countWindow (s.activeRecipe l) b slip) = c at hcount
    by_cases hstep : wantedStep (c.activeRecipe l) (c.lane l) = 0
    · rw [periodDecision_none hstep]
      exact hopen (hcount.clearPeriod false)
    · by_cases hin : (c.activeRecipe l).trimMin ≤ (c.lane l).trim + wantedStep (c.activeRecipe l) (c.lane l) ∧
        (c.lane l).trim + wantedStep (c.activeRecipe l) (c.lane l) ≤ (c.activeRecipe l).trimMax
      · rw [periodDecision_inside hstep hin]
        exact hopen ((hcount.trimStepped _).raise .trim (laneBit l))
      · rw [periodDecision_blocked hstep hin]
        split
        · exact ⟨_, hcount.struck, .inr ⟨.trimLimit, reopenWindow_fault (by rw [faultEntry_lane])⟩⟩
        · exact hopen hcount.struck
  · rw [periodStep_early hlast]
    exact hopen hcount

/-- The marks, the cuts and what was measured stand after the steps that follow the measurements. -/
theorem windowClosed_kept (hrun : (s.lane l).state = .run) (b : BandResult) (slip : Bool) :
    (windowClosed l b slip s).marks = s.marks ∧ (windowClosed l b slip s).cuts = s.cuts ∧
      ((windowClosed l b slip s).lane l).counters = (s.lane l).counters ∧
      ((windowClosed l b slip s).lane l).lastTpm = (s.lane l).lastTpm ∧
      ((windowClosed l b slip s).lane l).slipRun = (s.lane l).slipRun ∧
      ((windowClosed l b slip s).lane l).plan = (s.lane l).plan ∧
      ((windowClosed l b slip s).lane l).marksLost = (s.lane l).marksLost := by
  obtain ⟨u, hu, h | ⟨cause, h⟩⟩ := windowClosed_cases hrun b slip
  · have hm := hu.measured
    simp only [Lane.measured, Prod.mk.injEq] at hm
    rw [h, State.modLane_lane_self]
    exact ⟨hu.marks, hu.cuts, hm.2.2.1, hm.1.2.2.2, hm.2.1, hm.2.2.2.1, hm.2.2.2.2⟩
  · have hm := hu.measured
    simp only [Lane.measured, Prod.mk.injEq] at hm
    rw [h, faultEntry_lane, faultEntry_marks, faultEntry_cuts, leaveForFault_run true hu.run, State.modLane_lane_self]
    exact ⟨hu.marks, hu.cuts, hm.2.2.1, hm.1.2.2.2, hm.2.1, hm.2.2.2.1, hm.2.2.2.2⟩

/-- A window end that leaves its lane in RUN opens a window at the tally and asks for nothing (R57). -/
theorem windowClosed_run (hrun : (s.lane l).state = .run) {b : BandResult} {slip : Bool}
    (h : ((windowClosed l b slip s).lane l).state = .run) :
    ((windowClosed l b slip s).lane l).windowStart = (s.lane l).tally / 256 ∧
      ((windowClosed l b slip s).lane l).windowPulses = 0 ∧ ((windowClosed l b slip s).lane l).capstanPulses = 0 ∧
      ((windowClosed l b slip s).lane l).faultCause = (s.lane l).faultCause ∧
      (windowClosed l b slip s).stops = s.stops ∧ (windowClosed l b slip s).cals = s.cals := by
  obtain ⟨u, hu, ht | ⟨cause, ht⟩⟩ := windowClosed_cases hrun b slip
  · have hm := hu.measured
    simp only [Lane.measured, Prod.mk.injEq] at hm
    rw [ht, State.modLane_lane_self]
    exact ⟨congrArg (· / 256) hm.1.1, rfl, rfl, hm.1.2.1, hu.stops, hu.cals⟩
  · rw [ht, faultEntry_lane] at h
    exact absurd h (by exact nofun)

/-- The third slip window in a row: FAULT with cause WHEEL_SLIP (R63). -/
theorem windowClosed_slipped (h : 3 ≤ (s.lane l).slipRun) (b : BandResult) (slip : Bool) :
    windowClosed l b slip s = faultEntry l .wheelSlip true s := if_pos h

/-- A window end in RUN: the state measured, which `Local` and its lane's record relate to the start, and what
follows from it (R57). -/
theorem windowEnd_measured {k : PosNo} (hrun : (s.lane l).state = .run) (hpos : (s.lane l).position = some k)
    (hdue : (s.lane l).windowStart + (s.activeRecipe l).windowMm * 1000 ≤ (s.lane l).tally / 256) :
    exec (.windowEnd l) s = .next (windowClosed l (bandTest (s.activeRecipe l) (windowTwist (s.lane l) (s.position k)))
      (windowSlips (s.lane l) (s.position k) (s.activeRecipe l))
      (windowMeasured l (windowTwist (s.lane l) (s.position k)) (windowLength (s.lane l))
        (bandTest (s.activeRecipe l) (windowTwist (s.lane l) (s.position k)))
        (windowSlips (s.lane l) (s.position k) (s.activeRecipe l)) s)) := by
  have hexec : exec (.windowEnd l) s = .next (windowEndIfMet l s) := rfl
  rw [hexec, windowEndIfMet, if_pos ((windowMet_iff l s).2 ⟨hrun, hdue⟩), windowEnd, hpos]
  exact congrArg Host.Outcome.next (windowEndAt_eq l k s)

theorem bandTest_eq_high (r : Recipe) (tpm : Nat) : bandTest r tpm = .high ↔ r.targetTpm + r.band < tpm := by
  unfold bandTest
  split
  · simpa
  · split <;> simpa using ‹¬ r.targetTpm + r.band < tpm›

theorem bandTest_eq_low (r : Recipe) (tpm : Nat) :
    bandTest r tpm = .low ↔ ¬ r.targetTpm + r.band < tpm ∧ tpm + r.band < r.targetTpm := by
  unfold bandTest
  split
  · simp [*]
  · split <;> simp [*]

/-- The counters of a window end, by the tests of its band (R2, R60). -/
theorem windowEnded_bandTest (c : Counters) (r : Recipe) (tpm : Nat) (slip : Bool) :
    c.windowEnded (bandTest r tpm) slip =
      { windows := min 65535 (c.windows + 1)
        high := if decide (r.targetTpm + r.band < tpm) = true then min 65535 (c.high + 1) else c.high
        low := if (!decide (r.targetTpm + r.band < tpm) && decide (tpm < r.targetTpm - r.band)) = true
          then min 65535 (c.low + 1) else c.low
        splices := c.splices
        slips := if slip then min 65535 (c.slips + 1) else c.slips } := by
  have hlow : bandTest r tpm = .low ↔ (!decide (r.targetTpm + r.band < tpm) && decide (tpm < r.targetTpm - r.band)) = true := by
    rw [bandTest_eq_low, Bool.and_eq_true, Bool.not_eq_true', decide_eq_false_iff_not, decide_eq_true_iff]
    refine and_congr_right fun _ => ?_
    omega
  simp only [Counters.windowEnded, countUp, bandTest_eq_high, hlow, decide_eq_true_eq]

theorem nextSlipRun_le (slip : Bool) (x : Lane) : nextSlipRun slip x ≤ 3 := by
  unfold nextSlipRun; split <;> omega

/-- The slip test by the capstan length of the window (R62). -/
theorem windowSlips_eq (x : Lane) (q : Position) (r : Recipe) :
    windowSlips x q r = decide (0 < x.capstanPulses * q.cRef / q.pc ∧
      (((x.capstanPulses * q.cRef / q.pc : Nat) : Int) * r.slipPm <
        (((x.capstanPulses * q.cRef / q.pc : Nat) : Int) - (windowLength x : Nat)) * 1000)) :=
  (Bool.decide_and _ _).symm

/-- Settles O39: the measurements stand in the lane of `windowMeasured`, and `windowClosed` keeps them. -/
theorem windowEndMeasuresAndCounts : Obligations.WindowEndMeasuresAndCounts := by
  intro s l k x q r lw tpm band high low cap slip run hrun hpos hdue
  have hslip : windowSlips x q r = slip := windowSlips_eq x q r
  have hexec := windowEnd_measured (s := s) (l := l) hrun hpos hdue
  change _ = Host.Outcome.next (windowClosed l (bandTest r tpm) (windowSlips x q r)
    (windowMeasured l tpm lw (bandTest r tpm) (windowSlips x q r) s)) at hexec
  rw [hslip] at hexec
  have hlane := windowMeasured_lane l tpm lw (bandTest r tpm) slip s
  have hframe := windowMeasured_frame l tpm lw (bandTest r tpm) slip s
  have hm : Local l s (windowMeasured l tpm lw (bandTest r tpm) slip s) := (Local.refl l s).windowMeasured _ _ _ _
  have ht := hm.windowClosed (bandTest r tpm) slip
  generalize windowMeasured l tpm lw (bandTest r tpm) slip s = m at hexec hlane hframe hm ht
  have hmrun : (m.lane l).state = .run := by rw [hlane]; exact hrun
  have hstops : m.stops = s.stops := (congrArg State.stops hframe :)
  have hcals : m.cals = s.cals := (congrArg State.cals hframe :)
  have hcuts : m.cuts = s.cuts := (congrArg State.cuts hframe :)
  obtain ⟨-, kcuts, kcounters, ktpm, kslip, kplan, -⟩ := windowClosed_kept hmrun (bandTest r tpm) slip
  refine ⟨_, hexec, ?tpm, ?slip, ?counters, ?fault, ?running, ht.tally, ht.coilStart, ?plan,
    fun n hn => ⟨ht.lane n hn, ht.markList n hn⟩, ht.positions, ht.recipes, ht.line, ht.panel, ht.rows,
    kcuts.trans hcuts, forcing_of_fixed ht.fixed, inputs_of_fixed ht.fixed⟩
  case tpm => rw [ktpm, hlane]
  case slip => rw [kslip, hlane]; rfl
  case counters => rw [kcounters, hlane]; exact windowEnded_bandTest x.counters r tpm slip
  case plan => rw [kplan, hlane]
  case fault =>
    intro hthree
    have hsr : 3 ≤ (m.lane l).slipRun := by rw [hlane]; exact Nat.le_of_eq hthree.symm
    rw [windowClosed_slipped hsr]
    refine ⟨?_, ?_, ?_, ?_, ?_, ?_, ?_, ?_, faultEntry_entered hm hstops hcals .wheelSlip true⟩ <;>
      rw [faultEntry_lane, leaveForFault_run true hmrun, State.modLane_lane_self, hlane] <;> rfl
  case running =>
    intro hr
    obtain ⟨h1, h2, h3, h4, h5, h6⟩ := windowClosed_run hmrun hr
    refine ⟨?_, h2, h3, ?_, h5.trans hstops, h6.trans hcals⟩
    · rw [h1, hm.tally]
    · rw [h4, hlane]

/-! ### The adaptation period -/

/-- A window past the settling ones that is no slip window counts on its side of the band (R64). -/
theorem countWindow_bandTest (r : Recipe) (tpm : Nat) (slip : Bool) (x : Lane) :
    countWindow r (bandTest r tpm) slip x =
      { x with
        periodIndex := x.periodIndex + 1
        highCount := if (r.settle < x.periodIndex + 1 ∧ slip = false) ∧ r.targetTpm + r.band < tpm
          then x.highCount + 1 else x.highCount
        lowCount := if (r.settle < x.periodIndex + 1 ∧ slip = false) ∧ tpm + r.band < r.targetTpm
          then x.lowCount + 1 else x.lowCount } := by
  have hlow : bandTest r tpm = .low ↔ tpm + r.band < r.targetTpm := by
    rw [bandTest_eq_low]
    exact and_iff_right_of_imp fun _ => by omega
  simp only [countWindow, Bool.and_eq_true, decide_eq_true_eq, Bool.not_eq_true', beq_iff_eq, bandTest_eq_high, hlow]

/-- What follows a window end after the slip test (R57, R64). -/
theorem windowClosed_period (h : (s.lane l).slipRun < 3) (b : BandResult) (slip : Bool) :
    windowClosed l b slip s = reopenWindow l (periodStep l b slip s) := if_neg (not_le.2 h)

/-- A blocked step while a strike stands: FAULT with cause TRIM_LIMIT, and no new window (R67). -/
theorem periodClosed_faulted (hrun : (s.lane l).state = .run) (hstep : wantedStep (s.activeRecipe l) (s.lane l) ≠ 0)
    (hin : ¬ ((s.activeRecipe l).trimMin ≤ (s.lane l).trim + wantedStep (s.activeRecipe l) (s.lane l) ∧
      (s.lane l).trim + wantedStep (s.activeRecipe l) (s.lane l) ≤ (s.activeRecipe l).trimMax))
    (hstrike : (s.lane l).limitStrike = true) :
    reopenWindow l (periodDecision l s) = faultEntry l .trimLimit true (struck l s) ∧
    (faultEntry l .trimLimit true (struck l s)).lane l =
      { (s.lane l).clearPeriod with
        trimLimited := true, limitStrike := true, state := .fault, faultCause := some .trimLimit } := by
  have hkept := (RunKept.refl hrun).struck
  have hlane : (faultEntry l .trimLimit true (struck l s)).lane l =
      { (s.lane l).clearPeriod with
        trimLimited := true, limitStrike := true, state := .fault, faultCause := some .trimLimit } := by
    rw [faultEntry_lane, leaveForFault_run true hkept.run, struck, State.modLane_lane_self, State.raise_lane,
      State.modLane_lane_self]
    rfl
  rw [periodDecision_blocked hstep hin, if_pos hstrike, reopenWindow_fault (by rw [hlane])]
  exact ⟨rfl, hlane⟩

/-- A blocked step without a strike: the strike, with TRIM, and a new window (R66). -/
theorem periodClosed_struck (hrun : (s.lane l).state = .run) (hstep : wantedStep (s.activeRecipe l) (s.lane l) ≠ 0)
    (hin : ¬ ((s.activeRecipe l).trimMin ≤ (s.lane l).trim + wantedStep (s.activeRecipe l) (s.lane l) ∧
      (s.lane l).trim + wantedStep (s.activeRecipe l) (s.lane l) ≤ (s.activeRecipe l).trimMax))
    (hstrike : (s.lane l).limitStrike = false) :
    reopenWindow l (periodDecision l s) = (struck l s).modLane l Lane.openWindow := by
  rw [periodDecision_blocked hstep hin, if_neg (by rw [hstrike]; exact nofun),
    reopenWindow_run (RunKept.refl hrun).struck.run]

theorem raised_struck (l : LaneNo) (s : State) : Raised .trim (struck l s) := raised_raise _ _ _

/-- Settles O40: the window is counted, and the period's last window is decided (R64 to R67). -/
theorem adaptationPeriodStepsTheTrim : Obligations.AdaptationPeriodStepsTheTrim := by
  intro s l k x q r lw tpm band cap slip index counted hi lo step inside hrun hpos hdue hslips
  have hslip : windowSlips x q r = slip := windowSlips_eq x q r
  have hexec := windowEnd_measured (s := s) (l := l) hrun hpos hdue
  change _ = Host.Outcome.next (windowClosed l (bandTest r tpm) (windowSlips x q r)
    (windowMeasured l tpm lw (bandTest r tpm) (windowSlips x q r) s)) at hexec
  rw [hslip] at hexec
  have hlane := windowMeasured_lane l tpm lw (bandTest r tpm) slip s
  have hframe := windowMeasured_frame l tpm lw (bandTest r tpm) slip s
  have hm : Local l s (windowMeasured l tpm lw (bandTest r tpm) slip s) := (Local.refl l s).windowMeasured _ _ _ _
  generalize windowMeasured l tpm lw (bandTest r tpm) slip s = m at hexec hlane hframe hm
  have hsr : (m.lane l).slipRun < 3 := by
    rw [hlane]
    show nextSlipRun slip x < 3
    unfold nextSlipRun
    split
    · next h => have := hslips h; omega
    · omega
  rw [windowClosed_period hsr] at hexec
  have hrec : m.activeRecipe l = r := hm.activeRecipe
  have hcount : Local l s (m.modLane l (countWindow (m.activeRecipe l) (bandTest r tpm) slip)) :=
    hm.modLane _ fun _ => rfl
  have hclane : (m.modLane l (countWindow (m.activeRecipe l) (bandTest r tpm) slip)).lane l =
      { m.lane l with periodIndex := index, highCount := hi, lowCount := lo } := by
    rw [State.modLane_lane_self, hrec, countWindow_bandTest, hlane]
    rfl
  have hcframe : { m.modLane l (countWindow (m.activeRecipe l) (bandTest r tpm) slip) with
      lanes := s.lanes, marks := s.marks, freeTick := s.freeTick } = s := hframe
  have hcrun : ((m.modLane l (countWindow (m.activeRecipe l) (bandTest r tpm) slip)).lane l).state = .run := by
    rw [hclane, hlane]; exact hrun
  have hlast : ((m.lane l).periodIndex + 1 = (m.activeRecipe l).period) ↔ index = r.period := by
    rw [hlane, hrec]
  refine ⟨_, hexec, fun hne => ?early, fun heq => ?last⟩
  case early =>
    rw [periodStep_early (mt hlast.1 hne), reopenWindow_run hcrun, State.modLane_lane_self, hclane, hlane]
    exact ⟨hrun, rfl, rfl, rfl, rfl, rfl, rfl⟩
  case last =>
    rw [periodStep_last (hlast.2 heq)]
    generalize m.modLane l (countWindow (m.activeRecipe l) (bandTest r tpm) slip) = c
      at hclane hcframe hcrun hcount
    have hcrec : c.activeRecipe l = r := hcount.activeRecipe
    have hwanted : wantedStep (c.activeRecipe l) (c.lane l) = step := by rw [hclane, hcrec]; rfl
    have htrim : (c.lane l).trim = x.trim := by rw [hclane, hlane]
    have hinside : ((c.activeRecipe l).trimMin ≤ (c.lane l).trim + wantedStep (c.activeRecipe l) (c.lane l) ∧
        (c.lane l).trim + wantedStep (c.activeRecipe l) (c.lane l) ≤ (c.activeRecipe l).trimMax) ↔ inside := by
      rw [hwanted, htrim, hcrec]
    have hstrike : (c.lane l).limitStrike = x.limitStrike := by rw [hclane, hlane]
    by_cases hzero : step = 0
    · rw [periodDecision_none (hwanted.trans hzero),
        reopenWindow_run ((RunKept.refl hcrun).clearPeriod false).run, State.modLane_lane_self,
        State.modLane_lane_self, hclane, hlane]
      exact ⟨rfl, rfl, rfl, fun _ => ⟨hrun, rfl, rfl, rfl⟩, fun h => absurd hzero h, fun h => absurd hzero h⟩
    · have hne : wantedStep (c.activeRecipe l) (c.lane l) ≠ 0 := by rw [hwanted]; exact hzero
      by_cases hin : inside
      · rw [periodDecision_inside hne (hinside.2 hin),
          reopenWindow_run (((RunKept.refl hcrun).trimStepped _).raise .trim (laneBit l)).run]
        refine ⟨?_, ?_, ?_, fun h => absurd h hzero, fun _ _ => ⟨?_, ?_, ?_, ?_, ?_⟩, fun _ h => absurd hin h⟩
        case refine_8 => exact (raised_raise .trim (laneBit l) _ :)
        all_goals rw [State.modLane_lane_self, State.raise_lane, State.modLane_lane_self, hclane, hlane]
        case refine_4 => exact hrun
        case refine_5 => exact congrArg (x.trim + ·) (by rw [← hwanted, hclane, hlane])
        all_goals rfl
      · have hnot := mt hinside.1 hin
        cases hs : x.limitStrike with
        | true =>
          obtain ⟨hto, hflane⟩ := periodClosed_faulted hcrun hne hnot (hstrike.trans hs)
          have hstops : (struck l c).stops = s.stops := (congrArg State.stops hcframe :)
          have hcals : (struck l c).cals = s.cals := (congrArg State.cals hcframe :)
          have hentered := faultEntry_entered (hcount.trans (RunKept.refl hcrun).struck.of) hstops hcals .trimLimit true
          have htrimmed := (raised_struck l c).heard (((Local.refl l (struck l c)).faultEntry .trimLimit true).heard)
          rw [hto]
          rw [hflane, hclane, hlane]
          exact ⟨rfl, rfl, rfl, fun h => absurd h hzero, fun _ h => absurd h hin,
            fun _ _ => ⟨rfl, rfl, rfl, htrimmed, nofun, fun _ => ⟨rfl, rfl, rfl, hentered⟩⟩⟩
        | false =>
          have hraised : Raised .trim ((struck l c).modLane l Lane.openWindow) := raised_struck l c
          rw [periodClosed_struck hcrun hne hnot (hstrike.trans hs), State.modLane_lane_self, struck, State.raise_lane,
            State.modLane_lane_self, hclane, hlane]
          exact ⟨rfl, rfl, rfl, fun h => absurd h hzero, fun _ h => absurd h hin,
            fun _ _ => ⟨rfl, rfl, rfl, hraised, fun _ => hrun, nofun⟩⟩

end Sys2Proof.Machine
end


section
/-! PROOFS. The marks of a window end (04_twist_measurement_and_trim.md R61, R62; 05_the_mark_store.md R81, R83). -/

namespace Sys2Proof.Machine

variable {s t u : State} {l : LaneNo}

/-! ### The newest zone -/

/-- The mark `b` at an index of a list is its newest zone (R61, R86). -/
def NewestAt (ms : List Mark) (i : Nat) (b : Mark) : Prop :=
  ms[i]? = some b ∧ b.kind = .twistZone ∧ ∀ j c, ms[j]? = some c → c.kind = .twistZone →
    c.endPos < b.endPos ∨ (c.endPos = b.endPos ∧ (c.made < b.made ∨ (c.made = b.made ∧ i ≤ j)))

/-- What a search for the newest zone has found in a list. -/
def FoundNewest (ms : List Mark) : Option (Nat × Mark) → Prop
  | none => ∀ c ∈ ms, c.kind ≠ .twistZone
  | some (i, b) => NewestAt ms i b

theorem getElem?_concat_eq_some {ms : List Mark} {m c : Mark} {j : Nat} :
    (ms ++ [m])[j]? = some c ↔ ms[j]? = some c ∨ (j = ms.length ∧ c = m) := by
  rcases Nat.lt_trichotomy j ms.length with h | rfl | h
  · rw [List.getElem?_append_left h]
    exact (or_iff_left fun hj => absurd hj.1 (Nat.ne_of_lt h)).symm
  · simp [eq_comm]
  · have hlen : (ms ++ [m]).length ≤ j := by rw [List.length_append]; exact h
    rw [List.getElem?_eq_none hlen, List.getElem?_eq_none (Nat.le_of_lt h)]
    exact ⟨nofun, fun hj => hj.elim nofun fun hj => absurd hj.1 (Nat.ne_of_gt h)⟩

/-- A mark is a newer zone than the best found so far (R61, R86). -/
def newerZone (m : Mark) : Option (Nat × Mark) → Bool
  | none => m.kind == .twistZone
  | some (_, b) =>
    m.kind == .twistZone && (decide (b.endPos < m.endPos) || (b.endPos == m.endPos && decide (b.made < m.made)))

theorem newestZoneFrom_cons (m : Mark) (ms : List Mark) (i : Nat) (best : Option (Nat × Mark)) :
    newestZoneFrom (m :: ms) i best = newestZoneFrom ms (i + 1) (if newerZone m best then some (i, m) else best) := by
  cases best with
  | none => simp only [newestZoneFrom, newerZone, Bool.and_true]; rfl
  | some ib => rfl

/-- The search takes one more mark (R61). -/
theorem FoundNewest.concat {ms : List Mark} {best : Option (Nat × Mark)} (h : FoundNewest ms best) (m : Mark) :
    FoundNewest (ms ++ [m]) (if newerZone m best then some (ms.length, m) else best) := by
  cases best with
  | none =>
    have hnone : ∀ c ∈ ms, c.kind ≠ .twistZone := h
    split
    · next hz =>
      have hkind : m.kind = .twistZone := beq_iff_eq.1 hz
      refine ⟨getElem?_concat_eq_some.2 (.inr ⟨rfl, rfl⟩), hkind, fun j c hj hc => ?_⟩
      obtain hj | ⟨rfl, rfl⟩ := getElem?_concat_eq_some.1 hj
      · exact absurd hc (hnone c (List.mem_of_getElem? hj))
      · exact .inr ⟨rfl, .inr ⟨rfl, Nat.le_refl _⟩⟩
    · next hz =>
      have hkind : m.kind ≠ .twistZone := fun hk => hz (beq_iff_eq.2 hk)
      intro c hc
      obtain hc | hc := List.mem_append.1 hc
      · exact hnone c hc
      · exact List.mem_singleton.1 hc ▸ hkind
  | some ib =>
    obtain ⟨i, b⟩ := ib
    obtain ⟨hi, hb, hmax⟩ : NewestAt ms i b := h
    have hlt : i < ms.length := (List.getElem?_eq_some_iff.1 hi).1
    split
    · next hz =>
      simp only [newerZone, Bool.and_eq_true, Bool.or_eq_true, decide_eq_true_eq, beq_iff_eq] at hz
      refine ⟨getElem?_concat_eq_some.2 (.inr ⟨rfl, rfl⟩), hz.1, fun j c hj hc => ?_⟩
      obtain hj | ⟨rfl, rfl⟩ := getElem?_concat_eq_some.1 hj
      · have := hmax j c hj hc
        omega
      · exact .inr ⟨rfl, .inr ⟨rfl, Nat.le_refl _⟩⟩
    · next hz =>
      simp only [newerZone, Bool.and_eq_true, Bool.or_eq_true, decide_eq_true_eq, beq_iff_eq] at hz
      refine ⟨getElem?_concat_eq_some.2 (.inl hi), hb, fun j c hj hc => ?_⟩
      obtain hj | ⟨rfl, rfl⟩ := getElem?_concat_eq_some.1 hj
      · exact hmax j c hj hc
      · have := mt (And.intro hc) hz
        omega

theorem foundNewest_newestZoneFrom (rest : List Mark) {ms : List Mark} {best : Option (Nat × Mark)}
    (h : FoundNewest ms best) : FoundNewest (ms ++ rest) (newestZoneFrom rest ms.length best) := by
  induction rest generalizing ms best with
  | nil => rw [List.append_nil]; exact h
  | cons m rest ih =>
    have hstep := ih (h.concat m)
    rw [List.append_assoc, List.length_append] at hstep
    rw [newestZoneFrom_cons]
    exact hstep

theorem isNewestZone_iff (ms : List Mark) (i : Fin ms.length) : IsNewestZone ms i ↔ NewestAt ms i (ms[i]) := by
  refine ⟨fun ⟨hk, hmax⟩ => ⟨List.getElem?_eq_getElem i.2, hk, fun j c hj hc => ?_⟩,
    fun ⟨_, hk, hmax⟩ => ⟨hk, fun j hj => hmax j (ms[j]) (List.getElem?_eq_getElem j.2) hj⟩⟩
  obtain ⟨hlt, rfl⟩ := List.getElem?_eq_some_iff.1 hj
  exact hmax ⟨j, hlt⟩ hc

theorem NewestAt.unique {ms : List Mark} {i j : Nat} {b c : Mark} (h : NewestAt ms i b) (h' : NewestAt ms j c) :
    i = j := by
  have h1 := h.2.2 j c h'.1 h'.2.1
  have h2 := h'.2.2 i b h.1 h.2.1
  omega

/-- The model's search finds the zone that the statement names. -/
theorem newestZone_eq_find (ms : List Mark) :
    newestZone ms = ((List.finRange ms.length).find? fun i => decide (IsNewestZone ms i)).map fun i => (i.val, ms[i]) := by
  have hfound : FoundNewest ms (newestZone ms) :=
    foundNewest_newestZoneFrom ms (ms := []) (best := none) (by simp [FoundNewest])
  cases hfind : (List.finRange ms.length).find? fun i => decide (IsNewestZone ms i) with
  | none =>
    cases hz : newestZone ms with
    | none => rfl
    | some ib =>
      rw [hz] at hfound
      obtain ⟨hlt, hget⟩ := List.getElem?_eq_some_iff.1 hfound.1
      have hnone := List.find?_eq_none.1 hfind ⟨ib.1, hlt⟩ (List.mem_finRange _)
      rw [decide_eq_true_eq, isNewestZone_iff] at hnone
      exact absurd (show NewestAt ms ib.1 ms[ib.1] by rw [hget]; exact hfound) hnone
  | some i =>
    have hi : NewestAt ms i (ms[i]) := (isNewestZone_iff ms i).1 (of_decide_eq_true (List.find?_some hfind :))
    cases hz : newestZone ms with
    | none =>
      rw [hz] at hfound
      exact absurd hi.2.1 (hfound _ (List.getElem_mem i.2))
    | some jb =>
      obtain ⟨j, b⟩ := jb
      rw [hz] at hfound
      obtain rfl : i.val = j := hi.unique hfound
      have hb : some b = some ms[i] := hfound.1.symm.trans hi.1
      rw [Option.some.inj hb]
      rfl

/-! ### One mark handed -/

theorem handMarks_nil (s : State) : handMarks [] s = s := if_pos (Nat.zero_le _)

/-- One mark handed at an event, with a free entry. -/
theorem handMarks_one_stored (m : Mark) (h : s.marksHeld < 96) : handMarks [m] s = handMark m s := by
  have hshort : [m].length ≤ s.freeEntries := show 1 ≤ 96 - s.marksHeld by omega
  rw [handMarks, if_pos hshort, List.foldl_cons, List.foldl_nil]

/-- One mark handed at an event on a full pool is lost. -/
theorem handMarks_one_full (m : Mark) (h : 96 ≤ s.marksHeld) :
    handMarks [m] s = (s.useFree 1).modLane m.lane fun x => { x with marksLost := true } := by
  have hlong : ¬ [m].length ≤ s.freeEntries := show ¬ 1 ≤ 96 - s.marksHeld by omega
  have hpick : pickOrder s.freeTick [m].length [m] = [m] := List.perm_singleton.1 (pickOrder_perm s.freeTick [m])
  rw [handMarks, if_neg hlong, hpick, List.foldl_cons, List.foldl_nil]
  exact handMark_full (s := s.useFree 1) m h

/-- What the store and a lane show of the marks of the lane. -/
def State.markView (s : State) (l : LaneNo) : List Mark × Nat × Nat × Bool :=
  (s.markList l, s.marks.nextMade, s.marksHeld, (s.lane l).marksLost)

/-- A mark of lane `l` at or past coil_start, handed alone: stored in order while the pool has room, lost otherwise
(R81 to R83). -/
theorem handMarks_one_markView {m : Mark} (hl : m.lane = l) (hstart : (s.lane l).coilStart ≤ m.position) :
    (handMarks [m] s).markView l =
      (if s.marksHeld < 96 then placed { m with made := s.marks.nextMade } (s.markList l) else s.markList l,
        s.marks.nextMade + (decide (s.marksHeld < 96)).toNat, s.marksHeld + (decide (s.marksHeld < 96)).toNat,
        (s.lane l).marksLost || !decide (s.marksHeld < 96)) := by
  subst hl
  by_cases h : s.marksHeld < 96
  · have hkept : keptMark s m = { m with made := s.marks.nextMade } := by
      have hzero : (s.lane m.lane).coilStart - m.position = 0 := Nat.sub_eq_zero_of_le hstart
      have hmap : m.extent.map (· - 0) = m.extent := by cases m.extent <;> rfl
      rw [keptMark, hzero, hmap, Nat.max_eq_right hstart]
    have hlane : (handMark m s).lane m.lane = s.lane m.lane := by rw [handMark_stored m h]; rfl
    rw [handMarks_one_stored m h, State.markView, handMark_stored_markList m h, if_pos rfl, hkept, insertMark_eq_placed,
      handMark_stored_nextMade m h, handMark_stored_marksHeld m h, hlane]
    simp [h]
  · have hfull : 96 ≤ s.marksHeld := not_lt.1 h
    rw [handMarks_one_full m hfull, State.markView, State.modLane_lane_self]
    simp only [h, if_false, decide_false, Bool.toNat_false, Nat.add_zero, Bool.not_false, Bool.or_true]
    rfl

/-! ### The zone and the SLIP mark of a window end -/

theorem zoneStep_none (l : LaneNo) (lw : Nat) (s : State) : zoneStep l lw none s = s := rfl

/-- An out-of-band window extends the newest zone where that ends at its start (R61). -/
theorem zoneStep_grows {i : Nat} {z : Mark} (hz : newestZone (s.markList l) = some (i, z))
    (hend : z.endPos = (s.lane l).windowStart) (lw : Nat) (sn : Sense) :
    zoneStep l lw (some sn) s = s.setMarkList l ((s.markList l).modify i (extendZone lw sn)) := by
  simp only [zoneStep, hz, if_pos hend]

/-- An out-of-band window that continues no zone hands a new one (R61). -/
theorem zoneStep_fresh (hz : ∀ i z, newestZone (s.markList l) = some (i, z) → z.endPos ≠ (s.lane l).windowStart)
    (lw : Nat) (sn : Sense) : zoneStep l lw (some sn) s = handMarks (newZone l (s.lane l) lw sn) s := by
  cases h : newestZone (s.markList l) with
  | none => simp only [zoneStep, h]
  | some iz => simp only [zoneStep, h, if_neg (hz iz.1 iz.2 h)]

/-- A zone extended keeps the pool and the lane (R61). -/
theorem zoneStep_grows_markView {i : Nat} {z : Mark} (hz : newestZone (s.markList l) = some (i, z))
    (hend : z.endPos = (s.lane l).windowStart) (lw : Nat) (sn : Sense) :
    (zoneStep l lw (some sn) s).markView l =
      ((s.markList l).modify i (extendZone lw sn), s.marks.nextMade, s.marksHeld, (s.lane l).marksLost) := by
  have hheld := setMarkList_marksHeld s l ((s.markList l).modify i (extendZone lw sn))
  rw [List.length_modify] at hheld
  rw [zoneStep_grows hz hend, State.markView, State.setMarkList_markList, if_pos rfl, Nat.add_right_cancel hheld]
  rfl

/-- The zone that a window makes, raised to coil_start (R61). -/
def madeZone (l : LaneNo) (x : Lane) (sense : Option Sense) : Mark :=
  { kind := .twistZone, lane := l, position := max x.windowStart x.coilStart,
    extent := some (x.um - max x.windowStart x.coilStart), sense := sense, row := none, junction := none, made := 0 }

/-- A window that continues no zone: the new zone where something of it is left, stored or lost (R61, R83). -/
theorem zoneStep_fresh_markView (hz : ∀ i z, newestZone (s.markList l) = some (i, z) → z.endPos ≠ (s.lane l).windowStart)
    (hle : (s.lane l).windowStart ≤ (s.lane l).um) (sn : Sense) :
    (zoneStep l (windowLength (s.lane l)) (some sn) s).markView l =
      if max (s.lane l).windowStart (s.lane l).coilStart < (s.lane l).um then
        (if s.marksHeld < 96
          then placed { madeZone l (s.lane l) (some sn) with made := s.marks.nextMade } (s.markList l)
          else s.markList l,
          s.marks.nextMade + (decide (s.marksHeld < 96)).toNat, s.marksHeld + (decide (s.marksHeld < 96)).toNat,
          (s.lane l).marksLost || !decide (s.marksHeld < 96))
      else s.markView l := by
  have hsum : (s.lane l).windowStart + windowLength (s.lane l) = (s.lane l).um := by unfold windowLength; omega
  have hzone : newZone l (s.lane l) (windowLength (s.lane l)) sn =
      if max (s.lane l).windowStart (s.lane l).coilStart < (s.lane l).um then [madeZone l (s.lane l) (some sn)] else [] := by
    simp only [newZone, hsum]
    split
    · next h => rw [if_neg (not_lt.2 h)]
    · next h => rw [if_pos (not_le.1 h)]; rfl
  rw [zoneStep_fresh hz, hzone]
  split
  · exact handMarks_one_markView (m := madeZone l (s.lane l) (some sn)) rfl (Nat.le_max_right _ _)
  · rw [handMarks_nil]

/-- The SLIP mark of a slip window, stored or lost (R62, R83). -/
theorem slipStep_markView (l : LaneNo) (slip : Bool) (s : State) :
    (slipStep l slip s).markView l =
      (if (slip && decide (s.marksHeld < 96)) = true
        then placed { slipMark l (s.lane l) with made := s.marks.nextMade } (s.markList l) else s.markList l,
        s.marks.nextMade + (slip && decide (s.marksHeld < 96)).toNat,
        s.marksHeld + (slip && decide (s.marksHeld < 96)).toNat,
        (s.lane l).marksLost || (slip && !decide (s.marksHeld < 96))) := by
  have hview : ∀ (u : State), (u.modLane l fun x => { x with slipRun := nextSlipRun slip x }).markView l = u.markView l :=
    fun u => by rw [State.markView, State.modLane_lane_self]; rfl
  rw [slipStep_eq, hview]
  cases slip with
  | true =>
    rw [if_pos rfl, handMarks_one_markView (l := l) (m := slipMark l (s.lane l)) rfl (Nat.le_max_right _ _)]
    simp only [Bool.true_and, decide_eq_true_eq]
  | false => simp [State.markView]

/-- Settles O41: the zone and then the SLIP mark, each stored while the pool has room (R61, R62, R83). -/
theorem outOfBandWindowMakesOrExtendsAZone : Obligations.OutOfBandWindowMakesOrExtendsAZone := by
  intro s l k x q r um lw tpm band cap slip sense ms newest grows start fresh room zoned zones slips hrun hpos hdue
  have hslip : windowSlips x q r = slip := windowSlips_eq x q r
  have hexec := windowEnd_measured (s := s) (l := l) hrun hpos hdue
  change _ = Host.Outcome.next (windowClosed l (bandTest r tpm) (windowSlips x q r)
    (windowMeasured l tpm lw (bandTest r tpm) (windowSlips x q r) s)) at hexec
  rw [hslip] at hexec
  have hsense : (bandTest r tpm).sense = sense := by
    show (if r.targetTpm + band < tpm then BandResult.high else if tpm + band < r.targetTpm then .low else .inBand).sense =
      if r.targetTpm + band < tpm then some Sense.high else if tpm + band < r.targetTpm then some Sense.low else none
    split
    · rfl
    · split <;> rfl
  have hle : x.windowStart ≤ um := by omega
  have hzone : (zoneStep l lw sense (s.modLane l fun y => { y with lastTpm := some tpm })).markView l =
      (zoned, s.marks.nextMade + zones, s.marksHeld + zones, x.marksLost || (fresh && !room)) := by
    have hlane : (s.modLane l fun y => { y with lastTpm := some tpm }).lane l = { x with lastTpm := some tpm } :=
      State.modLane_lane_self ..
    have hview : (s.modLane l fun y => { y with lastTpm := some tpm }).markView l =
        (ms, s.marks.nextMade, s.marksHeld, x.marksLost) := by rw [State.markView, hlane]; rfl
    have hlists : (s.modLane l fun y => { y with lastTpm := some tpm }).markList l = ms := rfl
    have hmade : (s.modLane l fun y => { y with lastTpm := some tpm }).marks.nextMade = s.marks.nextMade := rfl
    have hheld : (s.modLane l fun y => { y with lastTpm := some tpm }).marksHeld = s.marksHeld := rfl
    generalize s.modLane l (fun y => { y with lastTpm := some tpm }) = s1 at hlane hview hlists hmade hheld
    have hfind : newestZone ms = newest.map fun i => (i.val, ms[i]) := newestZone_eq_find ms
    clear_value newest sense
    cases sense with
    | none =>
      have hlost : (x.marksLost || fresh && !room) = x.marksLost := Bool.or_false _
      rw [zoneStep_none, hview, hlost]
      rfl
    | some sn =>
      by_cases hg : grows = true
      · obtain ⟨i, rfl, hend⟩ : ∃ i, newest = some i ∧ ms[i].position + ms[i].extent.getD 0 = x.windowStart := by
          cases newest with
          | none => exact absurd hg (by exact nofun)
          | some i => exact ⟨i, rfl, of_decide_eq_true hg⟩
        have hextend : extendZone lw sn = fun m : Mark =>
            { m with
              extent := some (m.extent.getD 0 + lw), sense := if m.sense = some sn then some sn else some .both } := by
          funext m
          refine congrArg (fun sense => { m with extent := some (m.extent.getD 0 + lw), sense := sense }) ?_
          split
          · assumption
          · rfl
        have hfresh : fresh = false := by simp only [fresh, hg, Bool.not_true, Bool.and_false, Bool.false_and]
        have hzoned : zoned = ms.modify i.val (extendZone lw sn) := by rw [hextend]; exact if_pos hg
        rw [zoneStep_grows_markView (i := i.val) (z := ms[i]) (by rw [hlists, hfind]; rfl) (by rw [hlane]; exact hend),
          hlists, hmade, hheld, hlane, hzoned]
        simp only [zones, hfresh, Bool.false_and, Bool.toNat_false, Nat.add_zero, Bool.or_false]
      · have hnew : ∀ i z, newestZone (s1.markList l) = some (i, z) → z.endPos ≠ (s1.lane l).windowStart := by
          intro i z hiz hend
          rw [hlists, hfind] at hiz
          cases newest with
          | none => exact absurd hiz nofun
          | some j =>
            obtain ⟨-, rfl⟩ := Prod.mk.inj (Option.some.inj hiz)
            rw [hlane] at hend
            exact hg (decide_eq_true hend)
        have hgf : grows = false := Bool.eq_false_iff.2 hg
        have hview' := zoneStep_fresh_markView hnew (by rw [hlane]; exact hle) sn
        have hfresh : fresh = decide (start < um) := by
          simp only [fresh, hgf, Option.isSome_some, Bool.not_false, Bool.true_and]
        rw [hlane, hlists, hmade, hheld, hview] at hview'
        have hzoned : zoned = if (fresh && room) = true then
            placed { madeZone l x (some sn) with made := s.marks.nextMade } ms else ms := if_neg hg
        refine hview'.trans ?_
        split
        · next hlt =>
          have htrue : fresh = true := hfresh.trans (decide_eq_true hlt)
          simp only [hzoned, zones, htrue, Bool.true_and, room, decide_eq_true_eq]
          rfl
        · next hge =>
          have hfalse : fresh = false := hfresh.trans (decide_eq_false hge)
          simp only [hzoned, zones, hfalse, Bool.false_and, Bool.or_false, Bool.toNat_false, Nat.add_zero]
          rfl
  have hz : Local l s (zoneStep l lw sense (s.modLane l fun y => { y with lastTpm := some tpm })) :=
    ((Local.refl l s).modLane (fun y => { y with lastTpm := some tpm }) fun _ => rfl).zoneStep lw sense
  have hm : Local l s (windowMeasured l tpm lw (bandTest r tpm) slip s) := (Local.refl l s).windowMeasured _ _ _ _
  have ht := hm.windowClosed (bandTest r tpm) slip
  have hmrun : ((windowMeasured l tpm lw (bandTest r tpm) slip s).lane l).state = .run := by
    rw [windowMeasured_lane]; exact hrun
  obtain ⟨kmarks, -, -, -, -, -, klost⟩ := windowClosed_kept hmrun (bandTest r tpm) slip
  have hview : (windowMeasured l tpm lw (bandTest r tpm) slip s).markView l =
      (slipStep l slip (zoneStep l lw sense (s.modLane l fun y => { y with lastTpm := some tpm }))).markView l := by
    rw [windowMeasured, hsense, State.markView, State.modLane_lane_self]; rfl
  rw [slipStep_markView] at hview
  have hslipMark : slipMark l ((zoneStep l lw sense (s.modLane l fun y => { y with lastTpm := some tpm })).lane l) =
      { kind := .slip, lane := l, position := max um x.coilStart, extent := none, sense := none,
        row := none, junction := none, made := 0 } := by
    rw [slipMark, Lane.um, hz.tally, hz.coilStart]
  obtain ⟨zlist, zmade, zheld, zlost⟩ :
      (zoneStep l lw sense (s.modLane l fun y => { y with lastTpm := some tpm })).markList l = zoned ∧
      (zoneStep l lw sense (s.modLane l fun y => { y with lastTpm := some tpm })).marks.nextMade =
        s.marks.nextMade + zones ∧
      (zoneStep l lw sense (s.modLane l fun y => { y with lastTpm := some tpm })).marksHeld = s.marksHeld + zones ∧
      ((zoneStep l lw sense (s.modLane l fun y => { y with lastTpm := some tpm })).lane l).marksLost =
        (x.marksLost || (fresh && !room)) := by
    simpa only [State.markView, Prod.mk.injEq] using hzone
  rw [hslipMark, zlist, zmade, zheld, zlost] at hview
  simp only [State.markView, Prod.mk.injEq] at hview
  obtain ⟨vlist, vmade, -, vlost⟩ := hview
  have hone : ∀ b : Bool, b = true ↔ b.toNat = 1 := by decide
  refine ⟨_, hexec, ?_, fun n hn => ht.markList n hn, ?_, ?_⟩
  · rw [State.markList, kmarks]
    refine vlist.trans ?_
    simp only [hone]
    rfl
  · rw [kmarks, vmade]
  · have hfull : (!decide (s.marksHeld + zones < 96)) = decide (96 ≤ s.marksHeld + zones) := by
      rw [← decide_not]; exact decide_eq_decide.2 not_lt
    rw [klost, vlost, hfull]

end Sys2Proof.Machine
end


section
/-! PROOFS. The ceiling of the tally (02_length_tallies.md R29; 01_lanes_and_positions.md R19, R20, R16). -/

namespace Sys2Proof.Machine

variable {s t u : State} {l : LaneNo} {k : PosNo}

/-! ### The watchers of a lane in FAULT or STOPPING -/

/-- What the watchers of a lane outside THREADING, RUN and SPLICING leave. -/
structure Resting (l : LaneNo) (s t : State) : Prop where
  state : (t.lane l).state = (s.lane l).state
  cause : (t.lane l).faultCause = (s.lane l).faultCause
  splice : (t.lane l).spliceStart = (s.lane l).spliceStart
  laneFault : t.stops.laneFault = s.stops.laneFault
  record : t.stops.faultRecord = s.stops.faultRecord
  cals : t.cals = s.cals
  heard : Heard s t

theorem Resting.coilCutDueIfMet (l : LaneNo) (s : State) : Resting l s (coilCutDueIfMet l s) := by
  have hheard := heard_coilCutDueIfMet l s
  unfold Machine.coilCutDueIfMet at hheard ⊢
  split
  · have hlane : (coilCutDue l s).lane l = (s.lane l).dueNow := by rw [coilCutDue_frame]; exact s.setLane_lane_self l _
    have hstops : (coilCutDue l s).stops = s.stops.ifLate
        (cutIsLate s (.coil l (s.lane l).plan.reason) (s.lane l).plan.planPos) := by rw [coilCutDue_frame]
    refine ⟨by rw [hlane]; rfl, by rw [hlane]; rfl, by rw [hlane]; rfl, ?_, ?_, by rw [coilCutDue_frame]; rfl, ?_⟩
    · rw [hstops, StopUnit.ifLate]; split <;> rfl
    · rw [hstops, StopUnit.ifLate]; split <;> rfl
    · exact heard_coilCutDue l s
  · exact ⟨rfl, rfl, rfl, rfl, rfl, rfl, .refl s⟩

theorem State.lateTested_rest (s : State) (sel : CutWhat → Bool) (past : Nat → Bool) (lanes : LaneSet) :
    (s.lateTested sel past lanes).lanes = s.lanes ∧ (s.lateTested sel past lanes).stops.laneFault = s.stops.laneFault ∧
      (s.lateTested sel past lanes).stops.faultRecord = s.stops.faultRecord ∧
      (s.lateTested sel past lanes).cals = s.cals := by
  unfold State.lateTested
  split <;> exact ⟨rfl, rfl, rfl, rfl⟩

theorem Resting.laneWatchers (h : (s.lane l).state = .fault ∨ (s.lane l).state = .stopping) :
    Resting l s (Machine.laneWatchers l s) := by
  have hne : ∀ st, st ≠ .fault → st ≠ .stopping → (s.lane l).state ≠ st := fun st h1 h2 hst =>
    h.elim (fun hf => h1 (hst.symm.trans hf)) fun hf => h2 (hst.symm.trans hf)
  have htests : laneTests l s = Machine.coilCutDueIfMet l s := by
    have hthread : threadingEndIfMet l s = s := if_neg fun hm => hne .threading (by decide) (by decide)
      (threadingMet_iff l s |>.1 hm).1
    have hwindow : windowEndIfMet l s = s := if_neg fun hm => hne .run (by decide) (by decide)
      (windowMet_iff l s |>.1 hm).1
    have hsplice : spliceOverlongIfMet l s = s := if_neg fun hm => hne .splicing (by decide) (by decide)
      (spliceOverlongMet_iff_exists l s |>.1 hm).1
    rw [laneTests, hthread, hwindow, hsplice]
  have hcoil := Resting.coilCutDueIfMet l s
  have hheard := ((Local.refl l s).laneWatchers).heard
  rw [laneWatchers_eq, htests] at hheard ⊢
  obtain ⟨hlanes, hfault, hrecord, hcals⟩ := (Machine.coilCutDueIfMet l s).lateTested_rest (CutWhat.isCoilOf l)
    (pastAllowance s l) (laneBit l)
  have hlane := lane_of_lanes hlanes l
  exact ⟨by rw [hlane, hcoil.state], by rw [hlane, hcoil.cause], by rw [hlane, hcoil.splice], hfault.trans hcoil.laneFault,
    hrecord.trans hcoil.record, hcals.trans hcoil.cals, hheard⟩

/-! ### A lane in FAULT with the limit as its cause -/

/-- What the entry of a running lane of `s` into FAULT, and what may follow it, shows in `t` (R19). -/
structure FaultShown (l : LaneNo) (s t : State) : Prop where
  state : (t.lane l).state = .fault
  splice : (s.lane l).state = .splicing → (t.lane l).spliceStart = none
  laneFault : t.stops.laneFault = (s.stops.faulted (asksLaneFault l s) l).laneFault
  record : t.stops.faultRecord = (s.stops.faulted (asksLaneFault l s) l).faultRecord
  laneState : Shown .laneState l t
  stop : asksLaneFault l s = true → Shown .stop l t
  cal : ∀ k, t.cal k = if (s.lane l).position = some k then (s.cal k).aborted else s.cal k
  calRaised : ∀ k, (s.lane l).position = some k → (s.cal k).running = true → Raised .cal t

theorem closeSplice_none (l : LaneNo) (s : State) : ((closeSplice l s).lane l).spliceStart = none := by
  unfold closeSplice
  split
  · rw [State.modLane_lane_self]
  · next h => simpa using h

/-- The entry from RUN or SPLICING. -/
theorem faultEntry_faultShown (l : LaneNo) (cause : FaultCause) (atEnd : Bool) (s : State) :
    FaultShown l s (faultEntry l cause atEnd s) where
  state := by rw [faultEntry_lane]
  splice h := by
    rw [faultEntry_lane, leaveForFault, h]
    exact closeSplice_none l s
  laneFault := by rw [faultEntry_stops]
  record := by rw [faultEntry_stops]
  laneState := faultEntry_laneState l cause atEnd s
  stop h := faultEntry_stop h cause atEnd
  cal k := faultEntry_cal l cause atEnd s k
  calRaised _ hk hr := (faultEntry_raised hk hr cause atEnd).1

/-- An entry from a state of the lane that kept the stop unit and the calibrations shows the same. -/
theorem faultEntry_faultShown_of (h : Local l s t) (hstops : t.stops = s.stops) (hcals : t.cals = s.cals)
    (hns : (s.lane l).state ≠ .splicing) (cause : FaultCause) (atEnd : Bool) :
    FaultShown l s (faultEntry l cause atEnd t) := by
  have hf := faultEntry_faultShown l cause atEnd t
  have hasks := h.asksLaneFault
  refine ⟨hf.state, fun hs => absurd hs hns, ?_, ?_, hf.laneState, fun ha => hf.stop (hasks.trans ha),
    fun k => ?_, fun k hk hr => hf.calRaised k (h.position.trans hk) (by rw [State.cal, hcals]; exact hr)⟩
  · rw [hf.laneFault, hasks, hstops]
  · rw [hf.record, hasks, hstops]
  · rw [hf.cal, h.position, State.cal, hcals]; rfl

theorem FaultShown.resting (h : FaultShown l s t) (hr : Resting l t u) : FaultShown l s u where
  state := hr.state.trans h.state
  splice hs := hr.splice.trans (h.splice hs)
  laneFault := hr.laneFault.trans h.laneFault
  record := hr.record.trans h.record
  laneState := h.laneState.heard hr.heard
  stop ha := (h.stop ha).heard hr.heard
  cal k := by rw [State.cal, hr.cals]; exact h.cal k
  calRaised k hk hrun := (h.calRaised k hk hrun).heard hr.heard

/-- A lane in FAULT takes the limit as its cause, with LANE_STATE where the cause changes (R20). -/
theorem tallyLimit_fault (h : (s.lane l).state = .fault) :
    tallyLimit l s = if (s.lane l).faultCause = some .tallyLimit then s
      else State.raise .laneState (laneBit l) (s.modLane l fun x => { x with faultCause := some .tallyLimit }) := by
  rw [tallyLimit, h]

theorem tallyLimit_stopping (h : (s.lane l).state = .stopping) : tallyLimit l s = s := by rw [tallyLimit, h]

theorem tallyLimit_faults (h : (s.lane l).state = .run ∨ (s.lane l).state = .splicing) :
    tallyLimit l s = faultEntry l .tallyLimit false s := by
  unfold tallyLimit
  obtain h | h := h <;> rw [h]

theorem FaultShown.tallyLimit (h : FaultShown l s t) :
    FaultShown l s (Machine.tallyLimit l t) ∧ ((Machine.tallyLimit l t).lane l).faultCause = some .tallyLimit := by
  rw [tallyLimit_fault h.state]
  split
  · next hc => exact ⟨h, hc⟩
  · have hlane : (State.raise .laneState (laneBit l) (t.modLane l fun x => { x with faultCause := some .tallyLimit })).lane l =
        { t.lane l with faultCause := some .tallyLimit } := by rw [State.raise_lane, State.modLane_lane_self]
    have hheard : Heard t (State.raise .laneState (laneBit l)
        (t.modLane l fun x => { x with faultCause := some .tallyLimit })) := (Heard.of_ports rfl).trans (heard_raise _ _ _)
    exact ⟨⟨by rw [hlane]; exact h.state, fun hs => by rw [hlane]; exact h.splice hs, h.laneFault, h.record,
      shown_raise_self _ _ _, fun ha => (h.stop ha).heard hheard, h.cal, fun k hk hr => (h.calRaised k hk hr).heard hheard⟩,
      by rw [hlane]⟩

/-- The window end that the count meets first, and then the limit (R29). -/
theorem windowEnd_tallyLimit (hmet : windowMet l s = true) (hpos : (s.lane l).position ≠ none) :
    FaultShown l s (tallyLimit l (windowEnd l s)) ∧
      ((tallyLimit l (windowEnd l s)).lane l).faultCause = some .tallyLimit := by
  obtain ⟨hrun, hdue⟩ := (windowMet_iff l s).1 hmet
  obtain ⟨k, hk⟩ := Option.ne_none_iff_exists'.1 hpos
  rw [windowEnd, hk]
  show FaultShown l s (tallyLimit l (windowEndAt l k s)) ∧
    ((tallyLimit l (windowEndAt l k s)).lane l).faultCause = some .tallyLimit
  rw [windowEndAt_eq]
  generalize bandTest (s.activeRecipe l) (windowTwist (s.lane l) (s.position k)) = b
  generalize windowSlips (s.lane l) (s.position k) (s.activeRecipe l) = slip
  generalize windowTwist (s.lane l) (s.position k) = tpm
  generalize windowLength (s.lane l) = lw
  have hframe := windowMeasured_frame l tpm lw b slip s
  have hmrun : ((windowMeasured l tpm lw b slip s).lane l).state = .run := by rw [windowMeasured_lane]; exact hrun
  have hm : Local l s (windowMeasured l tpm lw b slip s) := (Local.refl l s).windowMeasured _ _ _ _
  have hns : (s.lane l).state ≠ .splicing := by rw [hrun]; decide
  generalize windowMeasured l tpm lw b slip s = m at hframe hmrun hm
  obtain ⟨u, hu, ht | ⟨cause, ht⟩⟩ := windowClosed_cases hmrun b slip
  · have hopen : Local l s (u.modLane l Lane.openWindow) := (hm.trans hu.of).modLane Lane.openWindow fun _ => rfl
    have hopenRun : ((u.modLane l Lane.openWindow).lane l).state = .run := by
      rw [State.modLane_lane_self]; exact hu.run
    rw [ht, tallyLimit_faults (.inl hopenRun), faultEntry_lane]
    exact ⟨faultEntry_faultShown_of hopen (hu.stops.trans (congrArg State.stops hframe :))
      (hu.cals.trans (congrArg State.cals hframe :)) hns .tallyLimit false, rfl⟩
  · rw [ht]
    exact (faultEntry_faultShown_of (hm.trans hu.of) (hu.stops.trans (congrArg State.stops hframe :))
      (hu.cals.trans (congrArg State.cals hframe :)) hns cause true).tallyLimit

/-! ### The count past the ceiling -/

/-- What a count past the ceiling does to a lane that counts and is out of THREADING, by its state (R29). -/
structure HeldAtCeiling (l : LaneNo) (s t : State) : Prop where
  of : Local l s t
  stopping : (s.lane l).state = .stopping → (t.lane l).state = .stopping ∧ (t.lane l).faultCause = (s.lane l).faultCause
  cause : (s.lane l).state ≠ .stopping → (t.lane l).state = .fault ∧ (t.lane l).faultCause = some .tallyLimit
  faults : (s.lane l).state = .run ∨ (s.lane l).state = .splicing → FaultShown l s t
  rests : ¬ ((s.lane l).state = .run ∨ (s.lane l).state = .splicing) →
    t.stops.laneFault = s.stops.laneFault ∧ t.stops.faultRecord = s.stops.faultRecord ∧ t.cals = s.cals
  changed : (s.lane l).state = .fault → (s.lane l).faultCause ≠ some .tallyLimit → Shown .laneState l t

theorem heldAtCeiling_tallyLimit (h : (s.lane l).state ≠ .idle) (h' : (s.lane l).state ≠ .threading) :
    HeldAtCeiling l s (tallyLimit l s) := by
  have hof : Local l s (tallyLimit l s) := (Local.refl l s).tallyLimit
  by_cases hf : (s.lane l).state = .run ∨ (s.lane l).state = .splicing
  · have hshown : FaultShown l s (tallyLimit l s) := by
      rw [tallyLimit_faults hf]; exact faultEntry_faultShown l .tallyLimit false s
    have hcause : ((tallyLimit l s).lane l).faultCause = some .tallyLimit := by rw [tallyLimit_faults hf, faultEntry_lane]
    have hne : ∀ st, st ≠ .run → st ≠ .splicing → (s.lane l).state ≠ st := fun st h1 h2 hst =>
      hf.elim (fun hr => h1 (hst.symm.trans hr)) fun hr => h2 (hst.symm.trans hr)
    exact ⟨hof, fun hs => absurd hs (hne _ (by decide) (by decide)), fun _ => ⟨hshown.state, hcause⟩, fun _ => hshown,
      fun hn => absurd hf hn, fun hs => absurd hs (hne _ (by decide) (by decide))⟩
  · cases hs : (s.lane l).state with
    | idle => exact absurd hs h
    | threading => exact absurd hs h'
    | run => exact absurd (.inl hs) hf
    | splicing => exact absurd (.inr hs) hf
    | fault =>
      rw [tallyLimit_fault hs] at hof ⊢
      split
      · next hc =>
        exact ⟨.refl l s, fun h => absurd (hs.symm.trans h) nofun, fun _ => ⟨hs, hc⟩, fun h => absurd h hf,
          fun _ => ⟨rfl, rfl, rfl⟩, fun _ hn => absurd hc hn⟩
      · next hc =>
        rw [if_neg hc] at hof
        refine ⟨hof, fun h => absurd (hs.symm.trans h) nofun, fun _ => ?_, fun h => absurd h hf,
          fun _ => ⟨rfl, rfl, rfl⟩, fun _ _ => shown_raise_self _ _ _⟩
        rw [State.raise_lane, State.modLane_lane_self]
        exact ⟨hs, rfl⟩
    | stopping =>
      rw [tallyLimit_stopping hs]
      exact ⟨.refl l s, fun _ => ⟨hs, rfl⟩, fun hn => absurd hs hn, fun h => absurd h hf, fun _ => ⟨rfl, rfl, rfl⟩,
        fun h => absurd (hs.symm.trans h) nofun⟩

theorem HeldAtCeiling.laneWatchers (h : HeldAtCeiling l s t) : HeldAtCeiling l s (Machine.laneWatchers l t) := by
  have hrest : Resting l t (Machine.laneWatchers l t) := by
    refine Resting.laneWatchers ?_
    by_cases hs : (s.lane l).state = .stopping
    · exact .inr (h.stopping hs).1
    · exact .inl (h.cause hs).1
  refine ⟨h.of.laneWatchers, fun hs => ?_, fun hs => ?_, fun hf => (h.faults hf).resting hrest, fun hf => ?_,
    fun hs hc => (h.changed hs hc).heard hrest.heard⟩
  · obtain ⟨hst, hc⟩ := h.stopping hs
    exact ⟨hrest.state.trans hst, hrest.cause.trans hc⟩
  · obtain ⟨hst, hc⟩ := h.cause hs
    exact ⟨hrest.state.trans hst, hrest.cause.trans hc⟩
  · obtain ⟨h1, h2, h3⟩ := h.rests hf
    exact ⟨hrest.laneFault.trans h1, hrest.record.trans h2, hrest.cals.trans h3⟩

theorem heldAtCeiling_windowEnd (hmet : windowMet l s = true) (hpos : (s.lane l).position ≠ none) :
    HeldAtCeiling l s (tallyLimit l (windowEnd l s)) := by
  have hrun := ((windowMet_iff l s).1 hmet).1
  obtain ⟨hshown, hcause⟩ := windowEnd_tallyLimit hmet hpos
  exact ⟨(Local.refl l s).windowEnd.tallyLimit, fun hs => absurd (hrun.symm.trans hs) nofun, fun _ => ⟨hshown.state, hcause⟩,
    fun _ => hshown, fun hf => absurd (.inl hrun) hf, fun hs => absurd (hrun.symm.trans hs) nofun⟩

theorem HeldAtCeiling.of_useFree {n : Nat} (h : HeldAtCeiling l (s.useFree n) t) : HeldAtCeiling l s t where
  of := ((Local.refl l s).useFree n).trans h.of
  stopping := h.stopping
  cause := h.cause
  faults hf := by
    obtain ⟨h1, h2, h3, h4, h5, h6, h7, h8⟩ := h.faults hf
    exact ⟨h1, h2, h3, h4, h5, h6, h7, h8⟩
  rests := h.rests
  changed := h.changed

/-- The count past the ceiling, in either order of the window end and the limit (R29; assumption log 5). -/
theorem countPastCeiling_held (h : (s.lane l).state ≠ .idle) (h' : (s.lane l).state ≠ .threading)
    (hpos : (s.lane l).position ≠ none) : HeldAtCeiling l (s.withTally l tallyCeiling) (countPastCeiling l s) := by
  have hlane : (s.withTally l tallyCeiling).lane l = { s.lane l with tally := tallyCeiling } :=
    s.withTally_lane_self l tallyCeiling
  have hidle : ((s.withTally l tallyCeiling).lane l).state ≠ .idle := by rw [hlane]; exact h
  have hthread : ((s.withTally l tallyCeiling).lane l).state ≠ .threading := by rw [hlane]; exact h'
  have hplace : ((s.withTally l tallyCeiling).lane l).position ≠ none := by rw [hlane]; exact hpos
  have hmod : (s.modLane l fun x => { x with tally := tallyCeiling }) = s.withTally l tallyCeiling := rfl
  unfold countPastCeiling
  rw [hmod]
  dsimp only
  generalize s.withTally l tallyCeiling = t at hidle hthread hplace
  split
  · exact heldAtCeiling_tallyLimit hidle hthread
  · split
    · next hmet =>
      split
      · exact (heldAtCeiling_windowEnd (s := t.useFree 1) hmet hplace).of_useFree.laneWatchers
      · exact (heldAtCeiling_tallyLimit (s := t.useFree 1) hidle hthread).of_useFree.laneWatchers
    · exact (heldAtCeiling_tallyLimit hidle hthread).laneWatchers

/-- A count at the ceiling changes nothing in STOPPING, or in FAULT for that cause (R20, R29). -/
theorem countPastCeiling_still (htally : (s.lane l).tally = tallyCeiling)
    (h : ((s.lane l).state = .fault ∧ (s.lane l).faultCause = some .tallyLimit) ∨ (s.lane l).state = .stopping) :
    countPastCeiling l s = s := by
  have hsame : (s.modLane l fun x => { x with tally := tallyCeiling }) = s := by
    rw [← htally]; exact s.withTally_self l
  unfold countPastCeiling
  dsimp only
  rw [if_pos htally, hsame]
  obtain ⟨hf, hc⟩ | hs := h
  · rw [tallyLimit_fault hf, if_pos hc]
  · exact tallyLimit_stopping hs

theorem laneForward_past {kf : Nat} (h : tallyCeiling < (s.lane l).tally + kf) :
    laneForward l kf s = countPastCeiling l s := if_neg (not_le.2 h)

theorem tallyLimitIfMet_past (hk : (s.lane l).position = some k) (hi : (s.lane l).state ≠ .idle)
    (h : tallyCeiling < (s.lane l).tally + (s.position k).k) : tallyLimitIfMet l s = countPastCeiling l s := by
  unfold tallyLimitIfMet
  rw [hk]
  exact if_pos ⟨(counts_iff _).2 hi, h⟩

/-- Settles O36: both rows are the count past the ceiling, from the state that the count reaches (R29). -/
theorem ceilingHoldsTheTally : Obligations.CeilingHoldsTheTally := by
  intro s k l i hmap hpos hpast hidle hthread hi x faults asks counting
  have hcount : exec (.wheelCountForward k) s = .next (countPastCeiling l (counted .forward k s)) :=
    congrArg Host.Outcome.next ((wheelCount_forward hmap hidle).trans
      (laneForward_past (by rw [counted_lane]; exact hpast)))
  have hevent : exec (.tallyLimitReached l) s = .next (countPastCeiling l s) :=
    congrArg Host.Outcome.next (tallyLimitIfMet_past hpos hidle hpast)
  refine ⟨?held, fun htally hstill => ⟨?_, ?_⟩⟩
  case held =>
    have hfrom : ∃ u : State, exec i s = .next (countPastCeiling l u) ∧ { u with cals := s.cals, inputs := s.inputs } = s ∧
        (∀ j, u.cal j = { s.cal j with nRun := (u.cal j).nRun }) ∧ ∀ j, j ≠ k → u.cal j = s.cal j := by
      obtain rfl | rfl := hi
      · refine ⟨_, hcount, by rw [counted_eq], fun j => ?_, fun j hj => ?_⟩
        · rw [counted_cal]
          split
          · next h => rw [h.1]
          · rfl
        · rw [counted_cal, if_neg fun h => hj h.1]
      · exact ⟨s, hevent, rfl, fun _ => rfl, fun _ _ => rfl⟩
    obtain ⟨u, hexec, hframe, hcal, hcalne⟩ := hfrom
    have hlane : ∀ m, u.lane m = s.lane m := lane_of_lanes (congrArg State.lanes hframe :)
    have hstops : u.stops = s.stops := (congrArg State.stops hframe :)
    have hheld := countPastCeiling_held (s := u) (l := l) (by rw [hlane]; exact hidle) (by rw [hlane]; exact hthread)
      (by rw [hlane, hpos]; exact nofun)
    have htlane : (u.withTally l tallyCeiling).lane l = { x with tally := tallyCeiling } := by
      rw [State.withTally_lane_self, hlane]
    have htother : ∀ m, m ≠ l → (u.withTally l tallyCeiling).lane m = s.lane m := fun m hm => by
      rw [State.withTally, State.setLane_lane, if_neg hm, hlane]
    have htstops : (u.withTally l tallyCeiling).stops = s.stops := hstops
    have htcal : ∀ j, (u.withTally l tallyCeiling).cal j = u.cal j := fun _ => rfl
    have hasks : asksLaneFault l (u.withTally l tallyCeiling) = true ↔ ((s.recipe x.slot).stopOnFault = true ∨
        (s.line.mode = .net ∧ s.panel.state ≠ .none ∧ l.val < (s.recipe s.line.lineSlot).netWidth)) := by
      have hrecipe : ∀ i, u.recipe i = s.recipe i := fun i => (congrArg (fun w : State => w.recipe i) hframe :)
      have hline : u.line = s.line := (congrArg State.line hframe :)
      have hpanel : u.panel = s.panel := (congrArg State.panel hframe :)
      rw [asksLaneFault_iff, htlane]
      show (u.recipe x.slot).stopOnFault = true ∨
        (u.line.mode = .net ∧ u.panel.state ≠ .none ∧ l.val < (u.recipe u.line.lineSlot).netWidth) ↔ _
      rw [hrecipe, hrecipe, hline, hpanel]
    generalize u.withTally l tallyCeiling = v at hheld htlane htother htstops htcal hasks
    obtain ⟨hof, hstopping, hcause, hfaults, hrests, hchanged⟩ := hheld
    have hstate : (v.lane l).state = x.state := by rw [htlane]
    have hvpos : (v.lane l).position = some k := by rw [htlane]; exact hpos
    rw [hstate] at hstopping hcause hfaults hrests hchanged
    refine ⟨_, hexec, ?_, ?_, hcause, ?_, ?_, ?_, ?_, ?_, ?_, ?_, ?_⟩
    · rw [hof.tally, htlane]; rfl
    · intro hs
      obtain ⟨h1, h2⟩ := hstopping hs
      exact ⟨h1, by rw [h2, htlane]⟩
    · rintro (hf | ⟨hf, hc⟩)
      · exact (hfaults hf).laneState
      · exact hchanged hf (by rw [htlane]; exact hc)
    · exact fun hs => (hfaults (.inr hs)).splice (hstate.trans hs)
    · rintro ⟨hf, ha⟩
      have ha' := hasks.2 ha
      have hfs := hfaults hf
      exact ⟨by rw [hfs.laneFault, StopUnit.faulted, if_pos ha'], by rw [hfs.record, StopUnit.faulted, if_pos ha', htstops],
        hfs.stop ha'⟩
    · intro hn
      by_cases hf : faults
      · have ha' : ¬ asksLaneFault l v = true := fun ha => hn ⟨hf, hasks.1 ha⟩
        have hfs := hfaults hf
        rw [hfs.laneFault, hfs.record, StopUnit.faulted, if_neg ha', htstops]
        exact ⟨rfl, rfl⟩
      · obtain ⟨h1, h2, -⟩ := hrests hf
        exact ⟨by rw [h1, htstops], by rw [h2, htstops]⟩
    · intro hf hrun
      have hfs := hfaults hf
      have hrunning : (v.cal k).running = true := by
        rw [htcal, hcal]; exact (CalRecord.running_iff _).2 hrun
      rw [hfs.cal, if_pos hvpos, CalRecord.aborted_of_running hrunning]
      exact ⟨rfl, rfl, rfl, hfs.calRaised k hvpos hrunning⟩
    · intro hf
      obtain ⟨-, -, h3⟩ := hrests hf
      rw [State.cal, h3]
      show (v.cal k).state = _ ∧ (v.cal k).result = _
      rw [htcal, hcal]
      exact ⟨rfl, rfl⟩
    · intro j hj
      rw [hof.cal_of_ne (by rw [hvpos]; exact fun h => hj (Option.some.inj h).symm), htcal, hcalne j hj]
    · exact fun m hm => (hof.lane m hm).trans (htother m hm)
  · rw [hevent, countPastCeiling_still htally hstill]
  · rw [hcount, countPastCeiling_still (by rw [counted_lane]; exact htally) (by rw [counted_lane]; exact hstill),
      counted_eq]
    rfl

end Sys2Proof.Machine
end


section
/-! PROOFS. STOP_LANE (01_lanes_and_positions.md R14, R15; 08_cuts_and_packages.md R140 to R144). -/

namespace Sys2Proof.Machine

variable {s t : State} {l : LaneNo} {p : PortNo}

/-! ### The lane in STOPPING, before its END cut -/

/-- The record of a lane that leaves its state for STOPPING (R15). -/
def Lane.leaving (x : Lane) : Lane :=
  { x with
    windowPulses := if x.state = .run then 0 else x.windowPulses
    capstanPulses := if x.state = .run then 0 else x.capstanPulses
    periodIndex := if x.state = .run then 0 else x.periodIndex
    highCount := if x.state = .run then 0 else x.highCount
    lowCount := if x.state = .run then 0 else x.lowCount
    spliceStart := if x.state = .splicing then none else x.spliceStart
    faultCause := if x.state = .fault then none else x.faultCause }

theorem Lane.leaving_run {x : Lane} (h : x.state = .run) : x.leaving = x.discardWindow := by cases x; cases h; rfl

theorem Lane.leaving_splicing {x : Lane} (h : x.state = .splicing) : x.leaving = { x with spliceStart := none } := by
  cases x; cases h; rfl

theorem Lane.leaving_fault {x : Lane} (h : x.state = .fault) : x.leaving = { x with faultCause := none } := by
  cases x; cases h; rfl

theorem closeSplice_lane (l : LaneNo) (s : State) : (closeSplice l s).lane l = { s.lane l with spliceStart := none } := by
  unfold closeSplice
  split
  · rw [State.modLane_lane_self]; rfl
  · next h =>
    have hnone : (s.lane l).spliceStart = none := by simpa using h
    rw [← hnone]

theorem closeSplice_frame (l : LaneNo) (s : State) : { closeSplice l s with lanes := s.lanes, marks := s.marks } = s := by
  unfold closeSplice; split <;> rfl

/-- What STOP_LANE does to the lane's own record, its splice and its marks (R15). -/
theorem leaveForStop_lane (h : (s.lane l).state = .run ∨ (s.lane l).state = .splicing ∨ (s.lane l).state = .fault) :
    (leaveForStop l s).lane l = (s.lane l).leaving := by
  unfold leaveForStop
  obtain h | h | h := h
  · rw [Lane.leaving_run h]; simp only [h, State.modLane_lane_self]
  · rw [Lane.leaving_splicing h]; simp only [h, closeSplice_lane]
  · rw [Lane.leaving_fault h]; simp only [h, State.modLane_lane_self]

theorem leaveForStop_frame (l : LaneNo) (s : State) :
    { leaveForStop l s with lanes := s.lanes, marks := s.marks } = s := by
  unfold leaveForStop
  split
  · rfl
  · exact closeSplice_frame l s
  all_goals rfl

theorem leaveForStop_marks (h : (s.lane l).state ≠ .splicing) : (leaveForStop l s).marks = s.marks := by
  unfold leaveForStop
  split
  · rfl
  · next hs => exact absurd hs h
  all_goals rfl

/-- The state of a lane that is stopping, before its END cut falls due (R15). -/
def leftForStop (l : LaneNo) (s : State) : State := setLaneState l .stopping (abortCal l (leaveForStop l s))

theorem stopLane_eq (l : LaneNo) (s : State) : stopLane l s = endCutDue l (leftForStop l s) := rfl

theorem leftForStop_local (l : LaneNo) (s : State) : Local l s (leftForStop l s) :=
  (Local.refl l s).leaveForStop.abortCal.setLaneState .stopping

theorem leftForStop_lane (h : (s.lane l).state = .run ∨ (s.lane l).state = .splicing ∨ (s.lane l).state = .fault) :
    (leftForStop l s).lane l = { (s.lane l).leaving with state := .stopping } := by
  rw [leftForStop, setLaneState, State.raise_lane, State.modLane_lane_self, abortCal_lane, leaveForStop_lane h]

theorem leftForStop_frame (l : LaneNo) (s : State) :
    { leftForStop l s with lanes := s.lanes, marks := s.marks, cals := s.cals, ports := s.ports } = s := by
  have habort := abortCal_frame l (leaveForStop l s)
  have hleave := leaveForStop_frame l s
  calc { leftForStop l s with lanes := s.lanes, marks := s.marks, cals := s.cals, ports := s.ports }
    _ = { ({ abortCal l (leaveForStop l s) with
            cals := (leaveForStop l s).cals, ports := (leaveForStop l s).ports } : State) with
          lanes := s.lanes, marks := s.marks, cals := s.cals, ports := s.ports } := rfl
    _ = { ({ leaveForStop l s with lanes := s.lanes, marks := s.marks } : State) with
          cals := s.cals, ports := s.ports } := by rw [habort]
    _ = s := by rw [hleave]

theorem leftForStop_marks (l : LaneNo) (s : State) : (leftForStop l s).marks = (leaveForStop l s).marks :=
  (congrArg State.marks (abortCal_frame l (leaveForStop l s)) :)

theorem leftForStop_cal (l : LaneNo) (s : State) (k : PosNo) :
    (leftForStop l s).cal k = if (s.lane l).position = some k then (s.cal k).aborted else s.cal k := by
  have hpos := ((Local.refl l s).leaveForStop).position
  have hcal : (leaveForStop l s).cal k = s.cal k := (congrArg (fun u : State => u.cal k) (leaveForStop_frame l s) :)
  calc (leftForStop l s).cal k
    _ = (abortCal l (leaveForStop l s)).cal k := rfl
    _ = _ := by rw [abortCal_cal, hpos, hcal]

/-! ### The END cut -/

/-- The cut unit after the COIL entry of a lane has turned into its END cut (R140, R144). -/
def CutUnit.ended (u : CutUnit) (l : LaneNo) (past : Nat → Bool) : CutUnit :=
  { u with
    list := u.list.map fun e =>
      if e.what.isCoilOf l then { e with what := .coil l .endCut, late := past e.duePos } else e
    deferred := u.deferred.map fun d => if d.what.isCoilOf l then { d with late := past d.duePos } else d }

/-- The late test of a lane's own cuts, at its cutter (R144). -/
theorem cutIsLate_pastAllowance {w : CutWhat} (h : w.isCoilOf l = true) (s : State) (due : Nat) :
    cutIsLate s w due = pastAllowance s l due := cutIsLate_coil h s due

theorem convertToEnd_isCoilOf (l : LaneNo) (e : CutEntry) : (convertToEnd l e).what.isCoilOf l = e.what.isCoilOf l := by
  unfold convertToEnd
  split
  · next h => rw [h]; simp [CutWhat.isCoilOf]
  · rfl

/-- The END conversion and the late test of its lane's cuts, as one change of the unit (R140, R144). -/
theorem setLate_convertToEnd (l : LaneNo) (hcuts : t.cuts = { s.cuts with list := s.cuts.list.map (convertToEnd l) }) :
    (setLate (CutWhat.isCoilOf l) t) = { t with cuts := s.cuts.ended l (pastAllowance t l) } := by
  have hlist : (s.cuts.list.map (convertToEnd l)).map (CutEntry.retest t (CutWhat.isCoilOf l)) =
      s.cuts.list.map fun e =>
        if e.what.isCoilOf l then { e with what := .coil l .endCut, late := pastAllowance t l e.duePos } else e := by
    rw [List.map_map]
    refine List.map_congr_left fun e _ => ?_
    by_cases h : e.what.isCoilOf l = true
    · have hc : (convertToEnd l e).what.isCoilOf l = true := by rw [convertToEnd_isCoilOf, h]
      rw [Function.comp_apply, CutEntry.retest, if_pos hc, cutIsLate_pastAllowance hc, if_pos h, convertToEnd, if_pos h]
    · have hc : ¬ (convertToEnd l e).what.isCoilOf l = true := by rw [convertToEnd_isCoilOf]; exact h
      rw [Function.comp_apply, CutEntry.retest, if_neg hc, if_neg h, convertToEnd, if_neg h]
  have hdeferred : s.cuts.deferred.map (DeferredCut.retest t (CutWhat.isCoilOf l)) =
      s.cuts.deferred.map fun d => if d.what.isCoilOf l then { d with late := pastAllowance t l d.duePos } else d :=
    List.map_congr_left fun d _ => by
      by_cases h : d.what.isCoilOf l = true
      · rw [DeferredCut.retest, if_pos h, if_pos h, cutIsLate_pastAllowance h]
      · rw [DeferredCut.retest, if_neg h, if_neg h]
  rw [setLate, State.modCuts, hcuts]
  simp only [hlist, hdeferred]
  rfl

/-- A COIL entry of a lane is past its allowance (R144). -/
def State.endIsLate (s : State) (l : LaneNo) : Bool := s.cuts.list.any fun e => e.what.isCoilOf l && pastAllowance s l e.duePos

/-- The plan of a lane whose END cut joins the list becomes NONE (R140). -/
def Lane.planNone (x : Lane) : Lane := { x with plan := { x.plan with state := .none } }

/-- The state of an END cut that has turned into one, before its request for CUT_LATE. -/
def endConverted (l : LaneNo) (s : State) : State :=
  if s.cuts.list.any fun e => e.what.isCoilOf l && e.isRequested then
    State.raise .cutDue (laneBit l) { s.setLane l (s.lane l).planNone with cuts := s.cuts.ended l (pastAllowance s l) }
  else { s.setLane l (s.lane l).planNone with cuts := s.cuts.ended l (pastAllowance s l) }

theorem endCutConverts_eq (l : LaneNo) (s : State) :
    endCutConverts l s = requestIfLate (s.endIsLate l) (.coil l .endCut) (endConverted l s) := by
  have hlate : (s.cuts.list.any fun e => e.what.isCoilOf l && cutIsLate s e.what e.duePos) = s.endIsLate l := by
    refine congrArg (List.any s.cuts.list) (funext fun e => ?_)
    cases h : e.what.isCoilOf l with
    | false => rfl
    | true => rw [cutIsLate_pastAllowance h]
  have hplan : Local l s ((s.modCuts fun u => { u with list := u.list.map (convertToEnd l) }).modLane l
      fun x => { x with plan := { x.plan with state := .none } }) :=
    ((Local.refl l s).modCuts fun u => { u with list := u.list.map (convertToEnd l) }).modLane
      (fun x => { x with plan := { x.plan with state := .none } }) fun _ => rfl
  have hpast : ∀ u, Local l s u → pastAllowance u l = pastAllowance s l := fun u hu => by
    funext due; rw [pastAllowance, hu.activeRecipe, hu.cutterCoord, pastAllowance]
  unfold endCutConverts endConverted
  dsimp only
  rw [hlate]
  refine congrArg (requestIfLate (s.endIsLate l) (.coil l .endCut)) ?_
  split
  · rw [setLate_convertToEnd (s := s) l (by rfl), hpast _ (hplan.raise _ _)]; rfl
  · rw [setLate_convertToEnd (s := s) l (by rfl), hpast _ hplan]; rfl

/-- What the END conversion changes: the plan, the cut unit, the stop unit and the notices (R140, R144). -/
theorem endCutConverts_frame (l : LaneNo) (s : State) :
    endCutConverts l s =
      { s.setLane l (s.lane l).planNone with
        cuts := s.cuts.ended l (pastAllowance s l), stops := s.stops.ifLate (s.endIsLate l)
        ports := (endCutConverts l s).ports } := by
  rw [endCutConverts_eq, requestIfLate_frame]
  unfold endConverted
  split <;> rfl

/-- An END cut that turned from a REQUESTED entry is shown with CUT_DUE again (R140). -/
theorem endCutConverts_cutDue (h : ∃ e ∈ s.cuts.list, e.what.isCoilOf l = true ∧ e.state = .requested) :
    Shown .cutDue l (endCutConverts l s) := by
  obtain ⟨e, he, hcoil, hreq⟩ := h
  have hany : (s.cuts.list.any fun e => e.what.isCoilOf l && e.isRequested) = true :=
    List.any_eq_true.2 ⟨e, he, by simp [hcoil, CutEntry.isRequested, hreq]⟩
  rw [endCutConverts_eq]
  refine Shown.heard ?_ (heard_requestIfLate _ _ _)
  rw [endConverted, if_pos (by exact hany)]
  exact shown_raise_self _ _ _

theorem endCutConverts_stop (h : s.endIsLate l = true) : Shown .stop l (endCutConverts l s) := by
  rw [endCutConverts_eq]
  exact shown_requestIfLate h (by simp [CutWhat.lanes]) _

/-- An END cut that falls due at the cutter is not late (R144). -/
theorem cutIsLate_cutter (l : LaneNo) (s : State) : cutIsLate s (.coil l .endCut) (s.cutterCoord l) = false :=
  decide_eq_false (by simp)

/-- What an END cut that falls due anew changes: the plan, the cut unit and the notices (R140, R142, R143). -/
theorem endCutDue_new_frame (h : (s.lane l).plan.state ≠ .due) :
    endCutDue l s =
      { s.setLane l (endPlan (s.cuts.holdsOther (.coil l .endCut)) (s.cutterCoord l) (s.lane l)) with
        cuts := s.cuts.withDue (.coil l .endCut) (s.cutterCoord l) false
        ports := (endCutDue l s).ports } := by
  have hplan : ∀ x, (endPlan (s.cuts.holdsOther (.coil l .endCut)) (s.cutterCoord l) x).berth = x.berth := fun x => by
    unfold endPlan; split <;> rfl
  have hframe := cutFallsDue_frame (.coil l .endCut) (s.cutterCoord l)
    (s.modLane l (endPlan (s.cuts.holdsOther (.coil l .endCut)) (s.cutterCoord l)))
  rw [cutIsLate_modPlan _ hplan, cutIsLate_cutter] at hframe
  rw [endCutDue, if_neg h]
  exact hframe

theorem endCutDue_new_cutDue (h : (s.lane l).plan.state ≠ .due)
    (hreq : ∃ e ∈ (endCutDue l s).cuts.list.drop s.cuts.list.length, e.state = .requested) :
    Shown .cutDue l (endCutDue l s) := by
  rw [endCutDue, if_neg h] at hreq ⊢
  exact (cutFallsDue_cutDue (s := s.modLane l (endPlan (s.cuts.holdsOther (.coil l .endCut)) (s.cutterCoord l)))
    (w := .coil l .endCut) (due := s.cutterCoord l) hreq).2 l (by simp [CutWhat.lanes])

/-- An END cut that falls due touches the plan of its lane, the cuts, the stop unit and the notices (R140). -/
theorem endCutDue_rest (l : LaneNo) (s : State) :
    { endCutDue l s with lanes := s.lanes, cuts := s.cuts, stops := s.stops, ports := s.ports } = s ∧
      (endCutDue l s).lane l = { s.lane l with plan := ((endCutDue l s).lane l).plan } := by
  by_cases h : (s.lane l).plan.state = .due
  · have hconv : endCutDue l s = endCutConverts l s := if_pos h
    have hlane : (endCutConverts l s).lane l = (s.lane l).planNone := by
      rw [endCutConverts_frame]; exact s.setLane_lane_self l _
    rw [hconv, hlane]
    exact ⟨by rw [endCutConverts_frame]; rfl, rfl⟩
  · have hlane : (endCutDue l s).lane l =
        endPlan (s.cuts.holdsOther (.coil l .endCut)) (s.cutterCoord l) (s.lane l) := by
      rw [endCutDue_new_frame h]; exact s.setLane_lane_self l _
    rw [hlane]
    refine ⟨by rw [endCutDue_new_frame h]; rfl, ?_⟩
    unfold endPlan
    split <;> rfl

/-- The list holds an entry of another kind than a lane's coil exactly where it holds a PANEL entry (R142). -/
theorem holdsOther_coil_iff (u : CutUnit) (r : CutReason) :
    u.holdsOther (.coil l r) = true ↔ ∃ e ∈ u.list, e.what.isCoil = false := by
  simp [CutUnit.holdsOther, CutWhat.isCoil]

/-! ### STOP_LANE -/

theorem heldInPanel_iff (s : State) (l : LaneNo) : heldInPanel s l = true ↔
    s.line.mode = .net ∧ s.panel.state ≠ .none ∧ l.val < (s.recipe s.line.lineSlot).netWidth := by
  simp [heldInPanel, State.panelOpen, State.netSet, State.lineRecipe, and_assoc]

theorem serveStopLane_threading (h : (s.lane l).state = .threading) :
    serveStopLane [BitVec.ofNat 8 l.val] s = accept (setLaneState l .idle s) := by
  rw [serveStopLane, serveLane_ofNat, h]

theorem serveStopLane_idle (h : (s.lane l).state = .idle ∨ (s.lane l).state = .stopping) :
    serveStopLane [BitVec.ofNat 8 l.val] s = refuse .state s := by
  rw [serveStopLane, serveLane_ofNat]
  obtain h | h := h <;> rw [h]

theorem serveStopLane_running (h : (s.lane l).state = .run ∨ (s.lane l).state = .splicing ∨ (s.lane l).state = .fault) :
    serveStopLane [BitVec.ofNat 8 l.val] s = if heldInPanel s l then refuse .state s else accept (stopLane l s) := by
  rw [serveStopLane, serveLane_ofNat]
  obtain h | h | h := h <;> rw [h]

/-- A lane of the net set is not stopped while a panel is open, whatever its state but THREADING (R15). -/
theorem serveStopLane_held (hthread : (s.lane l).state ≠ .threading) (h : heldInPanel s l = true) :
    serveStopLane [BitVec.ofNat 8 l.val] s = refuse .state s := by
  cases hs : (s.lane l).state with
  | threading => exact absurd hs hthread
  | idle => exact serveStopLane_idle (.inl hs)
  | stopping => exact serveStopLane_idle (.inr hs)
  | run => rw [serveStopLane_running (.inl hs), if_pos h]
  | splicing => rw [serveStopLane_running (.inr (.inl hs)), if_pos h]
  | fault => rw [serveStopLane_running (.inr (.inr hs)), if_pos h]

/-- Settles O24: the refusals by the checks, and the stop by whether the coil's cut is already due (R14, R15, R140). -/
theorem stopLaneEndsTheRun : Obligations.StopLaneEndsTheRun := by
  refine ⟨fun s p b hr => ⟨fun hb => ?range, fun l hl => ?checks⟩, fun s p l hr => ?stop⟩
  case range => rw [exec_stopLane_ready b hr, serveStopLane, serveLane_range hb]; rfl
  case checks =>
    subst hl
    rw [exec_stopLane_ready _ hr]
    refine ⟨fun h => ?_, fun h => ?_, fun h hm hpn hw => ?_⟩
    · rw [serveStopLane_threading h]; rfl
    · rw [serveStopLane_idle h]; rfl
    · rw [serveStopLane_held h ((heldInPanel_iff s l).2 ⟨hm, hpn, hw⟩)]; rfl
  case stop =>
    intro x due past hstate hfree
    have hheld : ¬ heldInPanel s l = true := by
      rw [heldInPanel_iff]
      rintro ⟨hm, hpn, hw⟩
      obtain h | h | h := hfree
      · exact absurd (hm.symm.trans h) (by decide)
      · exact hpn h
      · omega
    rw [exec_stopLane_ready _ hr, serveStopLane_running hstate, if_neg hheld]
    have hlocal : Local l s (stopLane l s) := (Local.refl l s).stopLane
    have hw := leftForStop_local l s
    have hwlane := leftForStop_lane hstate
    have hwframe := leftForStop_frame l s
    have hwmarks := leftForStop_marks l s
    have hwcal := leftForStop_cal l s
    have hshown : Shown .laneState l (leftForStop l s) := shown_setLaneState _ _ _
    rw [stopLane_eq] at hlocal ⊢
    generalize leftForStop l s = w at *
    have hcuts : w.cuts = s.cuts := (congrArg State.cuts hwframe :)
    have hstops : w.stops = s.stops := (congrArg State.stops hwframe :)
    have hplan : (w.lane l).plan = x.plan := by rw [hwlane]; rfl
    have hpast : pastAllowance w l = past := by
      funext pos; rw [pastAllowance, hw.activeRecipe, hw.cutterCoord]; rfl
    obtain ⟨hrest, htlane⟩ := endCutDue_rest l w
    have hmarks : (endCutDue l w).marks = w.marks := (congrArg State.marks hrest :)
    have hcal : ∀ k, (endCutDue l w).cal k = w.cal k := fun k => (congrArg (fun u : State => u.cal k) hrest :)
    have hfree : (endCutDue l w).freeTick = s.freeTick :=
      (congrArg State.freeTick hrest :).trans (congrArg State.freeTick hwframe :)
    have hheard : Heard w (endCutDue l w) := ((Local.refl l w).endCutDue).heard
    refine ⟨endCutDue l w, rfl, ?lane, fun m hm => ⟨hlocal.lane m hm, hlocal.markList m hm⟩, ?marks, ?splice, fun k => ?cal,
      fun hdue => ?converted, fun hdue => ?fresh, fun q => ⟨(hheard q .laneState).1 (hshown q).1,
        (hheard q .laneState).2 l (hshown q).2, ?cutDue⟩, hlocal.positions, hlocal.recipes, hlocal.line, hlocal.panel,
      hlocal.rows, forcing_of_fixed hlocal.fixed, inputs_of_fixed hlocal.fixed, turn_of_fixed hlocal.fixed, hfree,
      pending_of_fixed hlocal.fixed⟩
    case lane => rw [htlane, hwlane]; rfl
    case marks => exact fun hs => by rw [hmarks, hwmarks, leaveForStop_marks hs]
    case splice =>
      intro hs a ha
      have hleave : leaveForStop l s = closeSplice l s := by
        unfold leaveForStop; rw [show (s.lane l).state = .splicing from hs]
      rw [State.markList, hmarks, hwmarks, hleave, closeSplice_of_open ha]
      exact State.setMarkList_markList_self ..
    case cal =>
      rw [hcal, hwcal]
      by_cases hk : x.position = some k
      · rw [if_pos hk]
        by_cases hrun : (s.cal k).state = .passA ∨ (s.cal k).state = .passB
        · rw [if_pos ⟨hk, hrun⟩, CalRecord.aborted_of_running ((CalRecord.running_iff _).2 hrun)]
        · rw [if_neg fun h => hrun h.2, CalRecord.aborted_of_not_running (mt (CalRecord.running_iff _).1 hrun)]
      · rw [if_neg hk, if_neg fun h => hk h.1]
    case converted =>
      have hconv : endCutDue l w = endCutConverts l w := if_pos (by rw [hplan]; exact hdue)
      have hlate : w.endIsLate l = s.cuts.list.any fun e => e.what.isCoilOf l && past e.duePos := by
        rw [State.endIsLate, hcuts, hpast]
      have hframe := endCutConverts_frame l w
      have hplane : (endCutConverts l w).lane l = (w.lane l).planNone := by
        rw [hframe]; exact w.setLane_lane_self l _
      have hpcuts : (endCutConverts l w).cuts = w.cuts.ended l (pastAllowance w l) := (congrArg State.cuts hframe :)
      have hpstops : (endCutConverts l w).stops = w.stops.ifLate (w.endIsLate l) := (congrArg State.stops hframe :)
      have hstop := endCutConverts_stop (s := w) (l := l)
      rw [hconv]
      refine ⟨by rw [hplane, Lane.planNone, hplan], by rw [hpcuts, hcuts, hpast]; rfl, ?_⟩
      rw [hpstops, hstops, hlate, StopUnit.ifLate]
      rw [hlate] at hstop
      exact ⟨rfl, hstop⟩
    case fresh =>
      have hnd : (w.lane l).plan.state ≠ .due := by rw [hplan]; exact hdue
      have hframe := endCutDue_new_frame hnd
      have hplane : (endCutDue l w).lane l =
          endPlan (s.cuts.holdsOther (.coil l .endCut)) (s.cutterCoord l) (w.lane l) := by
        rw [hframe, hcuts, hw.cutterCoord]; exact w.setLane_lane_self l _
      have hpcuts : (endCutDue l w).cuts = s.cuts.withDue (.coil l .endCut) (s.cutterCoord l) false := by
        rw [hframe, hcuts, hw.cutterCoord]
      refine ⟨by rw [hframe]; exact hstops, fun hall => ?_, fun hsome => ?_⟩
      · have hother : ¬ s.cuts.holdsOther (.coil l .endCut) = true := by
          rw [holdsOther_coil_iff]
          rintro ⟨e, he, hf⟩
          exact absurd ((hall e he).symm.trans hf) (by decide)
        rw [hplane, hpcuts, endPlan, if_neg hother, CutUnit.withDue, if_neg (by exact hother)]
        exact ⟨by rw [hplan], rfl⟩
      · have hother : s.cuts.holdsOther (.coil l .endCut) = true := (holdsOther_coil_iff _ _).2 hsome
        rw [hplane, hpcuts, endPlan, if_pos hother, CutUnit.withDue, if_pos (by exact hother)]
        exact ⟨rfl, rfl⟩
    case cutDue =>
      intro hreq hcond
      refine (show Shown .cutDue l (endCutDue l w) from ?_) q
      by_cases hdue : x.plan.state = .due
      · have hconv : endCutDue l w = endCutConverts l w := if_pos (by rw [hplan]; exact hdue)
        have hpcuts : (endCutConverts l w).cuts = w.cuts.ended l (pastAllowance w l) :=
          (congrArg State.cuts (endCutConverts_frame l w) :)
        rw [hconv] at hreq ⊢
        refine endCutConverts_cutDue ?_
        obtain ⟨e, he, hcoil, hstate⟩ := hreq
        rw [hpcuts] at he
        obtain ⟨e0, he0, rfl⟩ := List.mem_map.1 he
        by_cases h0 : e0.what.isCoilOf l = true
        · rw [if_pos h0] at hstate; exact ⟨e0, he0, h0, hstate⟩
        · rw [if_neg h0] at hcoil; exact absurd hcoil h0
      · have hnone := hcond.resolve_left hdue
        have hnd : (w.lane l).plan.state ≠ .due := by rw [hplan]; exact hdue
        refine endCutDue_new_cutDue hnd ?_
        obtain ⟨e, he, hcoil, hstate⟩ := hreq
        have hother : ¬ s.cuts.holdsOther (.coil l .endCut) = true := by
          rw [holdsOther_coil_iff]
          rintro ⟨e, he, hf⟩
          exact absurd ((hnone e he).1.symm.trans hf) (by decide)
        have hlist : (endCutDue l w).cuts.list = s.cuts.list ++
            [{ what := .coil l .endCut, duePos := w.cutterCoord l, late := false,
               state := if s.cuts.queue.length + s.cuts.requested < 8 then .requested else .held }] := by
          rw [endCutDue_new_frame hnd, hcuts, CutUnit.withDue, if_neg (by exact hother)]
          rfl
        have hnew : e ∈ (endCutDue l w).cuts.list.drop w.cuts.list.length := by
          rw [hlist] at he ⊢
          rw [hcuts, List.drop_append_of_le_length le_rfl, List.drop_length, List.nil_append]
          obtain hold | hnew := List.mem_append.1 he
          · exact absurd ((hnone e hold).2.symm.trans hcoil) (by decide)
          · exact hnew
        exact ⟨e, hnew, hstate⟩

end Sys2Proof.Machine
end


section
/-! PROOFS. SPLICE_BEGIN and SPLICE_END (01_lanes_and_positions.md R17; 04_twist_measurement_and_trim.md R71, R72;
08_cuts_and_packages.md R139). -/

namespace Sys2Proof.Machine

variable {s t : State} {l : LaneNo} {p : PortNo}

/-! ### The splice opened -/

/-- The place at which a splice opens: the tally, raised to coil_start (R71, R82). -/
def Lane.spliceAt (x : Lane) : Nat := max x.um x.coilStart

/-- The record of a lane whose splice has opened (R71). -/
def Lane.splicing (x : Lane) : Lane :=
  { x with
    windowPulses := 0, capstanPulses := 0, periodIndex := 0, highCount := 0, lowCount := 0
    spliceStart := some x.spliceAt, counters := { x.counters with splices := countUp x.counters.splices } }

/-- The state of a lane whose splice opens, before its mark is handed (R71). -/
def spliceCounted (l : LaneNo) (s : State) : State :=
  (abortCal l (s.modLane l Lane.discardWindow)).modLane l fun x =>
    { x with spliceStart := some (s.lane l).spliceAt
             counters := { x.counters with splices := countUp x.counters.splices } }

/-- The state of a lane whose splice has opened, before the test of its coil (R71). -/
def spliceOpened (l : LaneNo) (s : State) : State :=
  setLaneState l .splicing (handMark (spliceMark l (s.lane l).spliceAt) (spliceCounted l s))

theorem spliceBegin_eq (l : LaneNo) (s : State) :
    spliceBegin l s =
      if s.marksHeld < 96 then shortCoilTest l (s.lane l).spliceAt (spliceOpened l s) else spliceOpened l s := by
  have hstored : (s.freeEntries ≠ 0) ↔ s.marksHeld < 96 := by
    show 96 - s.marksHeld ≠ 0 ↔ _
    omega
  unfold spliceBegin
  simp only [hstored]
  rfl

theorem spliceCounted_lane (l : LaneNo) (s : State) : (spliceCounted l s).lane l = (s.lane l).splicing := by
  rw [spliceCounted, State.modLane_lane_self, abortCal_lane, State.modLane_lane_self]
  rfl

theorem spliceCounted_frame (l : LaneNo) (s : State) :
    { spliceCounted l s with lanes := s.lanes, cals := s.cals, ports := s.ports } = s := by
  have habort := abortCal_frame l (s.modLane l Lane.discardWindow)
  exact congrArg (fun u : State => { u with lanes := s.lanes }) habort

theorem spliceCounted_cal (l : LaneNo) (s : State) (k : PosNo) :
    (spliceCounted l s).cal k = if (s.lane l).position = some k then (s.cal k).aborted else s.cal k := by
  have hpos : ((s.modLane l Lane.discardWindow).lane l).position = (s.lane l).position := by
    rw [State.modLane_lane_self]; rfl
  calc (spliceCounted l s).cal k
    _ = (abortCal l (s.modLane l Lane.discardWindow)).cal k := rfl
    _ = _ := by rw [abortCal_cal, hpos]; rfl

theorem spliceOpened_local (l : LaneNo) (s : State) : Local l s (spliceOpened l s) :=
  ((((Local.refl l s).modLane Lane.discardWindow fun _ => rfl).abortCal.modLane
    (fun x => { x with spliceStart := some (s.lane l).spliceAt
                       counters := { x.counters with splices := countUp x.counters.splices } })
    fun _ => rfl).handMark (spliceMark l (s.lane l).spliceAt) rfl).setLaneState .splicing

theorem spliceCounted_marks (l : LaneNo) (s : State) : (spliceCounted l s).marks = s.marks :=
  (congrArg State.marks (spliceCounted_frame l s) :)

theorem spliceCounted_marksHeld (l : LaneNo) (s : State) : (spliceCounted l s).marksHeld = s.marksHeld :=
  marksHeld_congr (congrArg MarkStore.lists (spliceCounted_marks l s))

/-- The lane after its splice has opened; a mark that finds the pool full is lost (R71, R83). -/
theorem spliceOpened_lane (l : LaneNo) (s : State) :
    (spliceOpened l s).lane l =
      { (s.lane l).splicing with
        state := .splicing, marksLost := if s.marksHeld < 96 then (s.lane l).marksLost else true } := by
  rw [spliceOpened, setLaneState, State.raise_lane, State.modLane_lane_self]
  by_cases h : s.marksHeld < 96
  · have hlane : (handMark (spliceMark l (s.lane l).spliceAt) (spliceCounted l s)).lane l = (s.lane l).splicing := by
      rw [handMark_stored _ (by rw [spliceCounted_marksHeld]; exact h)]
      exact spliceCounted_lane l s
    rw [hlane, if_pos h]
    rfl
  · rw [handMark_full _ (by rw [spliceCounted_marksHeld]; exact not_lt.1 h), if_neg h]
    have hl : (spliceMark l (s.lane l).spliceAt).lane = l := rfl
    rw [hl, State.modLane_lane_self, spliceCounted_lane]

theorem setLaneState_cuts (l : LaneNo) (st : LaneState) (s : State) : (setLaneState l st s).cuts = s.cuts := rfl

theorem setLaneState_stops (l : LaneNo) (st : LaneState) (s : State) : (setLaneState l st s).stops = s.stops := rfl

theorem setLaneState_cal (l : LaneNo) (st : LaneState) (s : State) (k) : (setLaneState l st s).cal k = s.cal k := rfl

theorem setLaneState_marks (l : LaneNo) (st : LaneState) (s : State) : (setLaneState l st s).marks = s.marks := rfl

theorem setLaneState_markList (l m : LaneNo) (st : LaneState) (s : State) :
    (setLaneState l st s).markList m = s.markList m := rfl

theorem MarksOnly.cal (h : MarksOnly s t) (k : PosNo) : t.cal k = s.cal k := by rw [State.cal, h.cals, State.cal]

/-- The cuts, the stop unit and the calibrations when the splice has opened. -/
theorem spliceOpened_rest (l : LaneNo) (s : State) :
    (spliceOpened l s).cuts = s.cuts ∧ (spliceOpened l s).stops = s.stops ∧
      ∀ k, (spliceOpened l s).cal k = if (s.lane l).position = some k then (s.cal k).aborted else s.cal k := by
  have hmark := MarksOnly.handMark (spliceMark l (s.lane l).spliceAt) (spliceCounted l s)
  have hframe := spliceCounted_frame l s
  refine ⟨?_, ?_, fun k => ?_⟩
  · rw [spliceOpened, setLaneState_cuts, hmark.cuts]; exact (congrArg State.cuts hframe :)
  · rw [spliceOpened, setLaneState_stops, hmark.stops]; exact (congrArg State.stops hframe :)
  · rw [spliceOpened, setLaneState_cal, hmark.cal, spliceCounted_cal]

theorem spliceOpened_laneState (l : LaneNo) (s : State) : Shown .laneState l (spliceOpened l s) :=
  shown_setLaneState _ _ _

theorem spliceOpened_marks_full (h : 96 ≤ s.marksHeld) : (spliceOpened l s).marks = s.marks := by
  have hfull := handMark_full (spliceMark l (s.lane l).spliceAt) (s := spliceCounted l s)
    (by rw [spliceCounted_marksHeld]; exact h)
  rw [spliceOpened, setLaneState_marks, hfull]
  exact spliceCounted_marks l s

/-- The open mark of a splice as the store keeps it (R71, R86). -/
def openedMark (l : LaneNo) (s : State) : Mark :=
  { kind := .splice, lane := l, position := (s.lane l).spliceAt, extent := none, sense := none, row := none,
    junction := none, made := s.marks.nextMade }

theorem spliceOpened_markList (h : s.marksHeld < 96) :
    (spliceOpened l s).markList l = insertMark (openedMark l s) (s.markList l) := by
  have hlists : (spliceCounted l s).markList l = s.markList l :=
    congrArg (fun m : MarkStore => m.lists[l]) (spliceCounted_marks l s)
  have hkept : keptMark (spliceCounted l s) (spliceMark l (s.lane l).spliceAt) = openedMark l s := by
    have hraised : max (s.lane l).coilStart (s.lane l).spliceAt = (s.lane l).spliceAt :=
      Nat.max_eq_right (Nat.le_max_right _ _)
    have hlane : (spliceMark l (s.lane l).spliceAt).lane = l := rfl
    rw [keptMark, hlane, spliceCounted_lane, spliceCounted_marks]
    show ({ kind := .splice, lane := l, position := max (s.lane l).coilStart (s.lane l).spliceAt, extent := none,
            sense := none, row := none, junction := none, made := s.marks.nextMade } : Mark) = _
    rw [hraised]
    rfl
  have hfree : (spliceCounted l s).marksHeld < 96 := by rw [spliceCounted_marksHeld]; exact h
  have hl : l = (spliceMark l (s.lane l).spliceAt).lane := rfl
  rw [spliceOpened, setLaneState_markList, handMark_stored_markList _ hfree, if_pos hl, hkept]
  exact congrArg (insertMark (openedMark l s)) hlists

/-- The splices of the coil, the new one with them (R139). -/
theorem spliceCount_spliceOpened (h : s.marksHeld < 96) :
    spliceCount (spliceOpened l s) l = ((s.markList l).filter fun m => m.kind == .splice).length + 1 := by
  obtain ⟨front, back, hlist, hinsert, -, -⟩ := insertMark_spec (openedMark l s) (s.markList l)
  rw [spliceCount, spliceOpened_markList h, hinsert, hlist]
  simp only [List.filter_append, List.length_append, List.filter_cons, openedMark, beq_self_eq_true, if_true,
    List.length_cons]
  omega

/-! ### The test of a short coil -/

/-- The plan of a coil that is cut short before a splice (R139). -/
def Lane.cutShort (pos : Nat) (x : Lane) : Lane := { x with plan := { x.plan with planPos := pos, reason := .short } }

/-- The short-coil test of a WATCHING lane is met at a splice (R139). -/
def ShortCoil (l : LaneNo) (pos : Nat) (s : State) : Prop :=
  (s.lane l).plan.state = .watching ∧ (s.activeRecipe l).maxSplices < spliceCount s l ∧
    ((s.activeRecipe l).minCoilM * 1000000 : Nat) ≤
      ((pos : Int) - ((s.activeRecipe l).spliceClearMm * 1000 : Nat)) - ((s.lane l).coilStart : Int) ∧
    ((pos : Int) - ((s.activeRecipe l).spliceClearMm * 1000 : Nat)) < ((s.lane l).plan.planPos : Int)

theorem shortCoilTest_moved {pos : Nat} (h : ShortCoil l pos s) :
    shortCoilTest l pos s = coilCutDueIfMet l
      (s.modLane l (Lane.cutShort ((pos : Int) - ((s.activeRecipe l).spliceClearMm * 1000 : Nat)).toNat)) := if_pos h

theorem shortCoilTest_kept {pos : Nat} (h : ¬ ShortCoil l pos s) : shortCoilTest l pos s = s := if_neg h

/-- What the coil cut that is due, or not, leaves of lane, marks and calibrations. -/
theorem coilCutDueIfMet_rest (l : LaneNo) (s : State) :
    (coilCutDueIfMet l s).lane l = { s.lane l with plan := ((coilCutDueIfMet l s).lane l).plan } ∧
      (coilCutDueIfMet l s).marks = s.marks ∧ (coilCutDueIfMet l s).cals = s.cals := by
  unfold coilCutDueIfMet
  split
  · have hlane : (coilCutDue l s).lane l = (s.lane l).dueNow := by rw [coilCutDue_frame]; exact s.setLane_lane_self l _
    rw [hlane]
    exact ⟨rfl, by rw [coilCutDue_frame]; rfl, by rw [coilCutDue_frame]; rfl⟩
  · exact ⟨rfl, rfl, rfl⟩

/-- The short-coil test leaves lane, marks and calibrations but for the plan. -/
theorem shortCoilTest_rest (l : LaneNo) (pos : Nat) (s : State) :
    (shortCoilTest l pos s).lane l = { s.lane l with plan := ((shortCoilTest l pos s).lane l).plan } ∧
      (shortCoilTest l pos s).marks = s.marks ∧ (shortCoilTest l pos s).cals = s.cals := by
  by_cases h : ShortCoil l pos s
  · obtain ⟨hlane, hmarks, hcals⟩ := coilCutDueIfMet_rest l
      (s.modLane l (Lane.cutShort ((pos : Int) - ((s.activeRecipe l).spliceClearMm * 1000 : Nat)).toNat))
    rw [State.modLane_lane_self] at hlane
    rw [shortCoilTest_moved h]
    exact ⟨hlane, hmarks, hcals⟩
  · rw [shortCoilTest_kept h]
    exact ⟨rfl, rfl, rfl⟩

theorem spliceBegin_rest (l : LaneNo) (s : State) :
    (spliceBegin l s).lane l = { (spliceOpened l s).lane l with plan := ((spliceBegin l s).lane l).plan } ∧
      (spliceBegin l s).marks = (spliceOpened l s).marks ∧ (spliceBegin l s).cals = (spliceOpened l s).cals := by
  rw [spliceBegin_eq]
  generalize spliceOpened l s = o
  split
  · exact shortCoilTest_rest l _ o
  · exact ⟨rfl, rfl, rfl⟩

theorem heard_spliceBegin (l : LaneNo) (s : State) : Heard (spliceOpened l s) (spliceBegin l s) := by
  rw [spliceBegin_eq]
  split
  · exact ((Local.refl l (spliceOpened l s)).shortCoilTest (s.lane l).spliceAt).heard
  · exact .refl (spliceOpened l s)

/-- The coil's plan moves ahead of a splice that the store took (R139). -/
theorem spliceBegin_moved (hfree : s.marksHeld < 96) (h : ShortCoil l (s.lane l).spliceAt (spliceOpened l s)) :
    spliceBegin l s = coilCutDueIfMet l ((spliceOpened l s).modLane l (Lane.cutShort
      (((s.lane l).spliceAt : Int) - ((s.activeRecipe l).spliceClearMm * 1000 : Nat)).toNat)) := by
  rw [spliceBegin_eq, if_pos hfree, shortCoilTest_moved h, (spliceOpened_local l s).activeRecipe]

theorem spliceBegin_kept (h : s.marksHeld < 96 → ¬ ShortCoil l (s.lane l).spliceAt (spliceOpened l s)) :
    spliceBegin l s = spliceOpened l s := by
  rw [spliceBegin_eq]
  split
  · next hfree => exact shortCoilTest_kept (h hfree)
  · rfl

theorem shortCoil_spliceOpened (hfree : s.marksHeld < 96) :
    ShortCoil l (s.lane l).spliceAt (spliceOpened l s) ↔ (s.lane l).plan.state = .watching ∧
      (s.activeRecipe l).maxSplices < ((s.markList l).filter fun m => m.kind == .splice).length + 1 ∧
      ((s.activeRecipe l).minCoilM * 1000000 : Nat) ≤
        (((s.lane l).spliceAt : Int) - ((s.activeRecipe l).spliceClearMm * 1000 : Nat)) - ((s.lane l).coilStart : Int) ∧
      (((s.lane l).spliceAt : Int) - ((s.activeRecipe l).spliceClearMm * 1000 : Nat)) < ((s.lane l).plan.planPos : Int) := by
  rw [ShortCoil, (spliceOpened_local l s).activeRecipe, spliceCount_spliceOpened hfree, spliceOpened_lane]
  rfl

/-- The coil's cut that moved ahead of a splice is due at once where the cutter is there, in ROPE mode (R139). -/
theorem coilCutMet_cutShort (h : (s.lane l).plan.state = .watching) {pos : Nat} :
    coilCutMet l ((spliceOpened l s).modLane l (Lane.cutShort pos)) = true ↔
      s.line.mode = .rope ∧ pos ≤ (s.lane l).tally / 256 - s.line.dCut * 1000 := by
  have hlane : ((spliceOpened l s).modLane l (Lane.cutShort pos)).lane l =
      Lane.cutShort pos { (s.lane l).splicing with
        state := .splicing, marksLost := if s.marksHeld < 96 then (s.lane l).marksLost else true } := by
    rw [State.modLane_lane_self, spliceOpened_lane]
  have hline : ((spliceOpened l s).modLane l (Lane.cutShort pos)).line = s.line := by
    rw [State.modLane_line, (spliceOpened_local l s).line]
  rw [coilCutMet_iff, hlane, hline]
  exact ⟨fun ⟨_, _, hmode, hpos⟩ => ⟨hmode, hpos⟩, fun ⟨hmode, hpos⟩ => ⟨h, .inr (.inl rfl), hmode, hpos⟩⟩

/-! ### SPLICE_END -/

theorem State.setLane_setLane (s : State) (l : LaneNo) (x y : Lane) : (s.setLane l x).setLane l y = s.setLane l y := by
  simp [State.setLane]

theorem spliceEnd_eq {a : Nat} (h : (s.lane l).spliceStart = some a) :
    spliceEnd l s = State.raise .laneState (laneBit l)
      ((s.setMarkList l ((s.markList l).map fun m =>
          if m.kind = .splice ∧ m.extent = none then { m with extent := some ((s.lane l).tally / 256 - a) } else m)).setLane l
        { s.lane l with
          state := .run, spliceStart := none, windowStart := (s.lane l).tally / 256, windowPulses := 0
          capstanPulses := 0, periodIndex := 0, highCount := 0, lowCount := 0 }) := by
  rw [spliceEnd, closeSplice_of_open h, setLaneState, State.modLane_modLane]
  refine congrArg (State.raise .laneState (laneBit l)) ?_
  rw [State.modLane, State.setLane_lane_self, State.setLane_setLane]
  rfl

theorem serveSpliceBegin_ofNat (l : LaneNo) (s : State) : serveSpliceBegin [BitVec.ofNat 8 l.val] s =
    if (s.lane l).state = .run then accept (spliceBegin l s) else refuse .state s := serveLane_ofNat l _ s

theorem serveSpliceEnd_ofNat (l : LaneNo) (s : State) : serveSpliceEnd [BitVec.ofNat 8 l.val] s =
    if (s.lane l).state = .splicing then accept (spliceEnd l s) else refuse .state s := serveLane_ofNat l _ s

/-- Settles O25: the checks, and the splice by whether the coil's plan moves and its cut is due at once. -/
theorem splicesOpenAndClose : Obligations.SplicesOpenAndClose := by
  refine ⟨fun s p b hr => ⟨fun hb => ?beginRange, fun l hl => ?opens⟩, fun s p b hr => ⟨fun hb => ?endRange, fun l hl => ?closes⟩⟩
  case beginRange => rw [exec_spliceBegin_ready b hr, serveSpliceBegin, serveLane_range hb]; rfl
  case endRange => rw [exec_spliceEnd_ready b hr, serveSpliceEnd, serveLane_range hb]; rfl
  case closes =>
    subst hl
    rw [exec_spliceEnd_ready _ hr, serveSpliceEnd_ofNat]
    intro x
    refine ⟨fun h => by rw [if_neg h]; rfl, fun a ha h => ?_⟩
    rw [if_pos h, spliceEnd_eq ha]
    rfl
  case opens =>
    subst hl
    rw [exec_spliceBegin_ready _ hr, serveSpliceBegin_ofNat]
    intro x r start held splices spot moves cutter late
    refine ⟨fun h => by rw [if_neg h]; rfl, fun h => ?_⟩
    rw [if_pos h]
    have hlocal : Local l s (spliceBegin l s) := (Local.refl l s).spliceBegin
    obtain ⟨hlane, hmarks, hcals⟩ := spliceBegin_rest l s
    obtain ⟨hcuts, hstops, hcal⟩ := spliceOpened_rest l s
    have hshown : Shown .laneState l (spliceBegin l s) := (spliceOpened_laneState l s).heard (heard_spliceBegin l s)
    have hopened := spliceOpened_lane l s
    have hplan : ((spliceOpened l s).lane l).plan = x.plan := by rw [hopened]; rfl
    have hmoves : moves ↔ s.marksHeld < 96 ∧ ShortCoil l (s.lane l).spliceAt (spliceOpened l s) :=
      ⟨fun ⟨hfree, h⟩ => ⟨hfree, (shortCoil_spliceOpened hfree).2 h⟩,
        fun ⟨hfree, h⟩ => ⟨hfree, (shortCoil_spliceOpened hfree).1 h⟩⟩
    refine ⟨spliceBegin l s, rfl, ?lane, fun hn => ?kept, fun hm hnot => ?moved, fun hm hle hrope => ?dueNow,
      hshown, fun hfull => ?full, fun hfree => ?stored, fun m hm => ⟨hlocal.lane m hm, hlocal.markList m hm⟩,
      fun k => ?cal, hlocal.positions, hlocal.recipes, hlocal.line, hlocal.panel, hlocal.rows,
      forcing_of_fixed hlocal.fixed, inputs_of_fixed hlocal.fixed⟩
    case lane =>
      refine hlane.trans ?_
      generalize ((spliceBegin l s).lane l).plan = plan
      have hheld : s.marksHeld = held := rfl
      rw [hopened, hheld]
      simp only [Lane.splicing, Lane.spliceAt, Lane.um, countUp]
      rfl
    case kept =>
      have hkept : spliceBegin l s = spliceOpened l s := spliceBegin_kept fun hfree hs => hn (hmoves.2 ⟨hfree, hs⟩)
      rw [hkept]
      exact ⟨hplan, hcuts, hstops⟩
    case full => rw [hmarks]; exact spliceOpened_marks_full hfull
    case stored =>
      obtain ⟨front, back, hlist, hinsert, hfront, hback⟩ := insertMark_spec (openedMark l s) (s.markList l)
      refine ⟨front, back, hlist, ?_, hfront, hback⟩
      rw [State.markList, hmarks]
      exact (spliceOpened_markList hfree).trans hinsert
    case cal =>
      rw [State.cal, hcals]
      refine (hcal k).trans ?_
      by_cases hk : x.position = some k
      · rw [if_pos hk]
        by_cases hrun : (s.cal k).state = .passA ∨ (s.cal k).state = .passB
        · rw [if_pos ⟨hk, hrun⟩, CalRecord.aborted_of_running ((CalRecord.running_iff _).2 hrun)]
        · rw [if_neg fun h => hrun h.2, CalRecord.aborted_of_not_running (mt (CalRecord.running_iff _).1 hrun)]
      · rw [if_neg hk, if_neg fun h => hk h.1]
    case moved =>
      obtain ⟨hfree, hshort⟩ := hmoves.1 hm
      have hnotMet : ¬ coilCutMet l ((spliceOpened l s).modLane l (Lane.cutShort spot.toNat)) = true := by
        rw [coilCutMet_cutShort hm.2.1]
        rintro ⟨hrope, hle⟩
        exact hnot.elim (fun hlt => absurd hle (not_le.2 hlt)) fun hnet => absurd (hrope.symm.trans hnet) (by decide)
      have hbegin : spliceBegin l s = (spliceOpened l s).modLane l (Lane.cutShort spot.toNat) := by
        rw [spliceBegin_moved hfree hshort]
        exact if_neg hnotMet
      have hwatching : x.plan.state = .watching := hm.2.1
      rw [hbegin, State.modLane_cuts, State.modLane_stops, hcuts, hstops, State.modLane_lane_self, Lane.cutShort, hplan,
        ← hwatching]
      exact ⟨rfl, rfl, rfl⟩
    case dueNow =>
      obtain ⟨hfree, hshort⟩ := hmoves.1 hm
      have hmet : coilCutMet l ((spliceOpened l s).modLane l (Lane.cutShort spot.toNat)) = true :=
        (coilCutMet_cutShort hm.2.1).2 ⟨hrope, hle⟩
      have hbegin : spliceBegin l s = coilCutDue l ((spliceOpened l s).modLane l (Lane.cutShort spot.toNat)) := by
        rw [spliceBegin_moved hfree hshort]
        exact if_pos hmet
      have hlocalv : Local l s ((spliceOpened l s).modLane l (Lane.cutShort spot.toNat)) :=
        (spliceOpened_local l s).modLane (Lane.cutShort spot.toNat) fun _ => rfl
      have hvplan : (((spliceOpened l s).modLane l (Lane.cutShort spot.toNat)).lane l).plan =
          { x.plan with planPos := spot.toNat, reason := .short } := by
        rw [State.modLane_lane_self, Lane.cutShort, hplan]
      have hvcuts : ((spliceOpened l s).modLane l (Lane.cutShort spot.toNat)).cuts = s.cuts := by
        rw [State.modLane_cuts, hcuts]
      have hvstops : ((spliceOpened l s).modLane l (Lane.cutShort spot.toNat)).stops = s.stops := by
        rw [State.modLane_stops, hstops]
      rw [hbegin]
      generalize (spliceOpened l s).modLane l (Lane.cutShort spot.toNat) = v at hlocalv hvplan hvcuts hvstops
      have hlate : cutIsLate v (.coil l (v.lane l).plan.reason) (v.lane l).plan.planPos = late := by
        rw [cutIsLate_pastAllowance (l := l) (by simp [CutWhat.isCoilOf]), pastAllowance, hlocalv.activeRecipe,
          hlocalv.cutterCoord, hvplan]
        rfl
      have hframe := coilCutDue_frame l v
      rw [hlate] at hframe
      have hvlane : (coilCutDue l v).lane l = (v.lane l).dueNow := by rw [hframe]; exact v.setLane_lane_self l _
      refine ⟨by rw [hvlane, Lane.dueNow, hvplan], ?_, ?_, fun hreq q => ?_⟩
      · rw [hframe, hvcuts, hvplan]
      · rw [hframe, hvstops]; rfl
      · exact coilCutDue_cutDue (s := v) (by rw [hvcuts]; exact hreq) q

end Sys2Proof.Machine
end


section
/-! PROOFS. Marks handed at one event (05_the_mark_store.md R81 to R83): stored one by one while the pool has room, lost
otherwise, in the order given or in a free order. -/

namespace Sys2Proof.Machine

variable {s t u : State} {l : LaneNo}

/-! ### One mark -/

/-- A mark touches the list and the record of its own lane only. -/
theorem handMark_lane_ne {m : Mark} (h : l ≠ m.lane) (s : State) :
    (handMark m s).lane l = s.lane l ∧ (handMark m s).markList l = s.markList l := by
  by_cases hfree : s.marksHeld < 96
  · exact ⟨lane_of_lanes (by rw [handMark_stored m hfree]; rfl) l, by rw [handMark_stored_markList m hfree, if_neg h]⟩
  · rw [handMark_full m (not_lt.1 hfree), State.modLane_lane, if_neg h]
    exact ⟨rfl, rfl⟩

/-- A mark takes an entry of the pool while there is one. -/
theorem handMark_marksHeld (m : Mark) (h : s.marksHeld ≤ 96) :
    (handMark m s).marksHeld = min 96 (s.marksHeld + 1) := by
  by_cases hfree : s.marksHeld < 96
  · rw [handMark_stored_marksHeld m hfree]; omega
  · rw [handMark_full m (not_lt.1 hfree)]
    show s.marksHeld = _
    omega

theorem handMark_coilStart (m : Mark) (s : State) (l : LaneNo) :
    ((handMark m s).lane l).coilStart = (s.lane l).coilStart := (MarksOnly.handMark m s).coilStart l

/-- A mark as it is kept, by the coil_start of its lane and its number. -/
theorem keptMark_congr (m : Mark) (h : (t.lane m.lane).coilStart = (s.lane m.lane).coilStart) :
    keptMark t m = { keptMark s m with made := t.marks.nextMade } := by
  rw [keptMark, h, keptMark]

/-! ### A run of marks -/

/-- Marks handed one after the other. -/
def handAll (ms : List Mark) (s : State) : State := ms.foldl (fun t m => handMark m t) s

theorem handAll_nil (s : State) : handAll [] s = s := rfl

theorem handAll_cons (m : Mark) (ms : List Mark) (s : State) : handAll (m :: ms) s = handAll ms (handMark m s) := rfl

theorem handAll_append (ms ns : List Mark) (s : State) : handAll (ms ++ ns) s = handAll ns (handAll ms s) :=
  List.foldl_append ..

/-- The marks of an event: in their order where the pool has an entry for each, in a free order otherwise (R83). -/
theorem handMarks_cases (ms : List Mark) (s : State) :
    (s.marksHeld + ms.length ≤ 96 ∧ handMarks ms s = handAll ms s) ∨ ms = [] ∧ handMarks ms s = s ∨
      (96 < s.marksHeld + ms.length ∧ ∃ ns n, ns.Perm ms ∧ handMarks ms s = handAll ns (s.useFree n)) := by
  by_cases hempty : ms = []
  · subst hempty
    exact .inr (.inl ⟨rfl, handMarks_nil s⟩)
  · have hpos : 0 < ms.length := List.length_pos_iff.2 hempty
    have hfree : ms.length ≤ s.freeEntries ↔ s.marksHeld + ms.length ≤ 96 := by
      show ms.length ≤ 96 - s.marksHeld ↔ _
      omega
    by_cases hroom : s.marksHeld + ms.length ≤ 96
    · exact .inl ⟨hroom, if_pos (hfree.2 hroom)⟩
    · exact .inr (.inr ⟨not_le.1 hroom, _, _, pickOrder_perm s.freeTick ms, if_neg (mt hfree.1 hroom)⟩)

theorem MarksOnly.handAll (ms : List Mark) (s : State) : MarksOnly s (Machine.handAll ms s) := MarksOnly.foldl ms s

/-- A run of marks leaves the lanes that it names no mark of. -/
theorem handAll_lane_ne {ms : List Mark} (h : ∀ m ∈ ms, m.lane ≠ l) (s : State) :
    (handAll ms s).lane l = s.lane l ∧ (handAll ms s).markList l = s.markList l := by
  induction ms generalizing s with
  | nil => exact ⟨rfl, rfl⟩
  | cons m ms ih =>
    obtain ⟨hlane, hlist⟩ := ih (fun n hn => h n (List.mem_cons_of_mem m hn)) (handMark m s)
    obtain ⟨hlane', hlist'⟩ := handMark_lane_ne (h m List.mem_cons_self).symm s
    exact ⟨hlane.trans hlane', hlist.trans hlist'⟩

theorem handAll_marksHeld (ms : List Mark) (h : s.marksHeld ≤ 96) :
    (handAll ms s).marksHeld = min 96 (s.marksHeld + ms.length) := by
  induction ms generalizing s with
  | nil => rw [handAll_nil, List.length_nil]; omega
  | cons m ms ih =>
    have hone := handMark_marksHeld m h
    rw [handAll_cons, ih (by omega), hone, List.length_cons]
    omega

/-- On a full pool a run of marks is lost, each with its lane's marks_lost (R83). -/
theorem handAll_full (ms : List Mark) (h : 96 ≤ s.marksHeld) :
    (handAll ms s).marks = s.marks ∧
      ∀ l, ((handAll ms s).lane l).marksLost = ((s.lane l).marksLost || decide (∃ m ∈ ms, m.lane = l)) := by
  induction ms generalizing s with
  | nil => exact ⟨rfl, fun l => by simp [handAll_nil]⟩
  | cons m ms ih =>
    have hone := handMark_full m h
    have hmarks : (handMark m s).marks = s.marks := by rw [hone]; rfl
    obtain ⟨hrest, hlost⟩ := ih (s := handMark m s) (by rw [marksHeld_congr (congrArg MarkStore.lists hmarks)]; exact h)
    refine ⟨hrest.trans hmarks, fun l => ?_⟩
    rw [handAll_cons, hlost, hone, State.modLane_lane]
    by_cases hl : l = m.lane
    · subst hl; simp
    · have : m.lane ≠ l := Ne.symm hl
      simp [hl, this]

/-- With an entry for each, a run of marks is stored: what it takes of the store, and what it leaves (R81, R86). -/
theorem handAll_room {ms : List Mark} (h : s.marksHeld + ms.length ≤ 96) :
    (handAll ms s).marks.nextMade = s.marks.nextMade + ms.length ∧
      (handAll ms s).marksHeld = s.marksHeld + ms.length ∧ { handAll ms s with marks := s.marks } = s := by
  induction ms generalizing s with
  | nil => exact ⟨rfl, rfl, rfl⟩
  | cons m ms ih =>
    have hlen : (m :: ms).length = ms.length + 1 := rfl
    have hfree : s.marksHeld < 96 := by omega
    have hheld := handMark_stored_marksHeld m hfree
    have hmade := handMark_stored_nextMade m hfree
    obtain ⟨h1, h2, h3⟩ := ih (s := handMark m s) (by omega)
    have hframe := handMark_stored_frame m hfree
    refine ⟨by rw [handAll_cons, h1, hmade]; omega, by rw [handAll_cons, h2, hheld]; omega, ?_⟩
    have h4 := congrArg (fun v : State => { v with marks := s.marks }) h3
    exact h4.trans hframe

/-- A mark of a run whose other marks are of other lanes, with an entry for each: its place and its number. -/
theorem handAll_room_markList {pre post : List Mark} {m : Mark} (h : s.marksHeld + (pre ++ m :: post).length ≤ 96)
    (hpre : ∀ n ∈ pre, n.lane ≠ m.lane) (hpost : ∀ n ∈ post, n.lane ≠ m.lane) :
    (handAll (pre ++ m :: post) s).markList m.lane =
      insertMark { keptMark s m with made := s.marks.nextMade + pre.length } (s.markList m.lane) := by
  rw [List.length_append, List.length_cons] at h
  obtain ⟨hmade, hheld, -⟩ := handAll_room (s := s) (ms := pre) (by omega)
  obtain ⟨hlane, hlist⟩ := handAll_lane_ne hpre s
  rw [handAll_append, handAll_cons, (handAll_lane_ne hpost _).2,
    handMark_stored_markList m (by omega), if_pos rfl, hlist, keptMark_congr (s := s) (t := handAll pre s) m (by rw [hlane]), hmade]

/-- A mark of a run whose other marks are of other lanes: lost, or stored with some number (R83). -/
theorem handAll_one {pre post : List Mark} {m : Mark}
    (hpre : ∀ n ∈ pre, n.lane ≠ m.lane) (hpost : ∀ n ∈ post, n.lane ≠ m.lane) (s : State) :
    ((handAll (pre ++ m :: post) s).markList m.lane = s.markList m.lane ∧
        ((handAll (pre ++ m :: post) s).lane m.lane).marksLost = true) ∨
      (∃ n, (handAll (pre ++ m :: post) s).markList m.lane =
          insertMark { keptMark s m with made := n } (s.markList m.lane)) ∧
        (handAll (pre ++ m :: post) s).lane m.lane = s.lane m.lane := by
  obtain ⟨hlane, hlist⟩ := handAll_lane_ne hpre s
  rw [handAll_append, handAll_cons, (handAll_lane_ne hpost _).1, (handAll_lane_ne hpost _).2]
  by_cases hfree : (handAll pre s).marksHeld < 96
  · refine .inr ⟨⟨(handAll pre s).marks.nextMade, ?_⟩, ?_⟩
    · rw [handMark_stored_markList m hfree, if_pos rfl, hlist, keptMark_congr (s := s) (t := handAll pre s) m (by rw [hlane])]
    · rw [← hlane]; exact lane_of_lanes (by rw [handMark_stored m hfree]; rfl) _
  · refine .inl ⟨?_, ?_⟩
    · rw [handMark_full m (not_lt.1 hfree)]; exact hlist
    · rw [handMark_full m (not_lt.1 hfree), State.modLane_lane_self]

/-! ### The marks of one event -/

theorem handMarks_marksHeld (ms : List Mark) (h : s.marksHeld ≤ 96) :
    (handMarks ms s).marksHeld = min 96 (s.marksHeld + ms.length) := by
  obtain ⟨-, heq⟩ | ⟨rfl, heq⟩ | ⟨-, ns, n, hperm, heq⟩ := handMarks_cases ms s
  · rw [heq, handAll_marksHeld ms h]
  · rw [heq, List.length_nil]; omega
  · rw [heq, handAll_marksHeld ns (s := s.useFree n) h, hperm.length_eq]; rfl

theorem handMarks_full (ms : List Mark) (h : 96 ≤ s.marksHeld) :
    (handMarks ms s).marks = s.marks ∧
      ∀ l, ((handMarks ms s).lane l).marksLost = ((s.lane l).marksLost || decide (∃ m ∈ ms, m.lane = l)) := by
  obtain ⟨-, heq⟩ | ⟨rfl, heq⟩ | ⟨-, ns, n, hperm, heq⟩ := handMarks_cases ms s
  · rw [heq]; exact handAll_full ms h
  · rw [heq]; exact ⟨rfl, fun l => by simp⟩
  · have hmem : ∀ l, (∃ m ∈ ns, m.lane = l) ↔ ∃ m ∈ ms, m.lane = l := fun l =>
      exists_congr fun m => and_congr_left fun _ => hperm.mem_iff
    obtain ⟨hmarks, hlost⟩ := handAll_full ns (s := s.useFree n) h
    rw [heq]
    exact ⟨hmarks, fun l => by rw [hlost]; simp only [hmem]; rfl⟩

theorem handMarks_lane_ne {ms : List Mark} (h : ∀ m ∈ ms, m.lane ≠ l) (s : State) :
    (handMarks ms s).lane l = s.lane l ∧ (handMarks ms s).markList l = s.markList l := by
  obtain ⟨-, heq⟩ | ⟨rfl, heq⟩ | ⟨-, ns, n, hperm, heq⟩ := handMarks_cases ms s
  · rw [heq]; exact handAll_lane_ne h s
  · rw [heq]; exact ⟨rfl, rfl⟩
  · rw [heq]; exact handAll_lane_ne (fun m hm => h m (hperm.mem_iff.1 hm)) (s.useFree n)

/-- The marks of an event with an entry for each are stored in their order. -/
theorem handMarks_room {ms : List Mark} (h : s.marksHeld + ms.length ≤ 96) : handMarks ms s = handAll ms s := by
  obtain ⟨-, heq⟩ | ⟨rfl, heq⟩ | ⟨hfull, -⟩ := handMarks_cases ms s
  · exact heq
  · exact heq
  · omega

/-- A list whose marks are of different lanes, around one of its marks. -/
theorem lanes_ne_of_nodup {pre post : List Mark} {m : Mark} (h : ((pre ++ m :: post).map (·.lane)).Nodup) :
    (∀ n ∈ pre, n.lane ≠ m.lane) ∧ ∀ n ∈ post, n.lane ≠ m.lane := by
  rw [List.map_append, List.map_cons, List.nodup_append] at h
  obtain ⟨-, hpost, hpre⟩ := h
  obtain ⟨hnot, -⟩ := List.nodup_cons.1 hpost
  exact ⟨fun n hn => hpre _ (List.mem_map_of_mem hn) _ List.mem_cons_self,
    fun n hn hl => hnot (hl ▸ List.mem_map_of_mem hn)⟩

/-- A mark of an event whose marks are of different lanes: lost, or stored with some number (R83). -/
theorem handMarks_one {ms : List Mark} {m : Mark} (hm : m ∈ ms) (hlanes : (ms.map (·.lane)).Nodup) (s : State) :
    ((handMarks ms s).markList m.lane = s.markList m.lane ∧ ((handMarks ms s).lane m.lane).marksLost = true) ∨
      (∃ n, (handMarks ms s).markList m.lane = insertMark { keptMark s m with made := n } (s.markList m.lane)) ∧
        (handMarks ms s).lane m.lane = s.lane m.lane := by
  have hall : ∀ ns, ns.Perm ms → ∀ v : State,
      ((handAll ns v).markList m.lane = v.markList m.lane ∧ ((handAll ns v).lane m.lane).marksLost = true) ∨
      (∃ n, (handAll ns v).markList m.lane = insertMark { keptMark v m with made := n } (v.markList m.lane)) ∧
        (handAll ns v).lane m.lane = v.lane m.lane := by
    intro ns hperm v
    obtain ⟨pre, post, rfl⟩ := List.append_of_mem (hperm.mem_iff.2 hm)
    obtain ⟨hpre, hpost⟩ := lanes_ne_of_nodup ((hperm.map _).nodup_iff.2 hlanes)
    exact handAll_one hpre hpost v
  obtain ⟨-, heq⟩ | ⟨rfl, -⟩ | ⟨-, ns, n, hperm, heq⟩ := handMarks_cases ms s
  · rw [heq]; exact hall ms (.refl ms) s
  · exact absurd hm List.not_mem_nil
  · rw [heq]; exact hall ns hperm (s.useFree n)

theorem handMarks_room_frame {ms : List Mark} (h : s.marksHeld + ms.length ≤ 96) :
    { handMarks ms s with marks := s.marks } = s := by
  rw [handMarks_room h]; exact (handAll_room h).2.2

end Sys2Proof.Machine
end


section
/-! PROOFS. The rows of the panel on the draw (07_knotting_schedule.md R118 to R133): what each operation touches; the
decoders and the draw count (02_length_tallies.md R24, R32, R33). -/

namespace Sys2Proof.Machine

variable {s t u : State} {l : LaneNo}

/-! ### A change of each lane of a list -/

theorem forLanes_modEach_frame (f : LaneNo → Lane → Lane) (ls : List LaneNo) (s : State) :
    { forLanes ls (fun l t => t.modLane l (f l)) s with lanes := s.lanes } = s :=
  forLanes_keeps (fun t => { t with lanes := s.lanes }) (fun l t => t.modLane l (f l)) (fun _ _ => rfl) ls s

theorem forLanes_modEach_lane (f : LaneNo → Lane → Lane) (m : LaneNo) {ls : List LaneNo} (h : ls.Nodup) (s : State) :
    (forLanes ls (fun l t => t.modLane l (f l)) s).lane m = if m ∈ ls then f m (s.lane m) else s.lane m := by
  induction ls generalizing s with
  | nil => simp [forLanes]
  | cons l ls ih =>
    obtain ⟨hl, hls⟩ := List.nodup_cons.1 h
    have hcons : forLanes (l :: ls) (fun l t => t.modLane l (f l)) s =
        forLanes ls (fun l t => t.modLane l (f l)) (s.modLane l (f l)) := rfl
    rw [hcons, ih hls, State.modLane_lane]
    by_cases hm : m = l
    · subst hm; simp [hl]
    · simp [hm]

/-! ### What a row that falls due or closes touches -/

/-- The state after the PITCH marks of a feed check (R122). -/
def feedMarked (r : Nat) (s : State) : State := handMarks ((failingLanes s r).map (pitchMark s r)) s

/-- The state after the feed check's pitch_run fields (R122). -/
def feedCounted (r : Nat) (s : State) : State :=
  forLanes (lanesOf s.panelLanes)
    (fun l t => t.modLane l fun x => { x with pitchRun := nextPitchRun ((failingLanes s r).contains l) x.pitchRun })
    (feedMarked r s)

theorem feedCheck_eq {r : Nat} (h : r ≠ 0) (s : State) :
    feedCheck r s =
      if (feedStops s r).isEmpty then feedCounted r s else (feedCounted r s).requestStop .feed (laneSetOf (feedStops s r)) :=
  if_neg h

theorem feedCheck_zero (s : State) : feedCheck 0 s = s := rfl

theorem feedCounted_frame (r : Nat) (s : State) : { feedCounted r s with lanes := (feedMarked r s).lanes } = feedMarked r s :=
  forLanes_modEach_frame (fun l x => { x with pitchRun := nextPitchRun ((failingLanes s r).contains l) x.pitchRun })
    (lanesOf s.panelLanes) (feedMarked r s)

/-- A feed check touches lanes, marks, the stop unit, the notices and the free values (R121, R122). -/
theorem feedCheck_frame (r : Nat) (s : State) :
    { feedCheck r s with
      lanes := s.lanes, marks := s.marks, stops := s.stops, ports := s.ports, freeTick := s.freeTick } = s := by
  by_cases hr : r = 0
  · subst hr; rfl
  have hmarks := (MarksOnly.handMarks ((failingLanes s r).map (pitchMark s r)) s).frame
  have hcounted := feedCounted_frame r s
  have hframe : { feedCounted r s with
      lanes := s.lanes, marks := s.marks, stops := s.stops, ports := s.ports, freeTick := s.freeTick } = s :=
    calc { feedCounted r s with
          lanes := s.lanes, marks := s.marks, stops := s.stops, ports := s.ports, freeTick := s.freeTick }
      _ = { ({ feedCounted r s with lanes := (feedMarked r s).lanes } : State) with
            lanes := s.lanes, marks := s.marks, stops := s.stops, ports := s.ports, freeTick := s.freeTick } := rfl
      _ = { ({ feedMarked r s with lanes := s.lanes, marks := s.marks, freeTick := s.freeTick } : State) with
            stops := s.stops, ports := s.ports } := by rw [hcounted]
      _ = s := by rw [feedMarked, hmarks]
  rw [feedCheck_eq hr]
  split
  · exact hframe
  · exact hframe

theorem captureLanes_frame (s : State) : { captureLanes s with lanes := s.lanes } = s :=
  forLanes_modEach_frame (fun _ x => { x with lastRowTally := some x.um }) (lanesOf s.panelLanes) s

/-- The state of a row that has fallen due, before the panel-end test (R118, R120, R123, R125). -/
def rowFell (s : State) : State :=
  advanceRow
    (if (captureLanes (feedCheck s.panel.nextRow s)).rows.length < 4 then
      rowJoins s.panel.nextRow ((lanesOf s.panelLanes).map fun l => (s.lane l).um)
        (laneSetOf (failingLanes s s.panel.nextRow)) (captureLanes (feedCheck s.panel.nextRow s))
    else
      rowSkipped s.panel.nextRow ((lanesOf s.panelLanes).map fun l => (s.lane l).um)
        (laneSetOf (failingLanes s s.panel.nextRow)) (captureLanes (feedCheck s.panel.nextRow s)))

theorem rowFallsDue_eq (s : State) : rowFallsDue s = panelEndTest (rowFell s) := rfl

/-- The lanes of the panel captured after the feed check (R120). -/
def rowCaptured (s : State) : State := captureLanes (feedCheck s.panel.nextRow s)

theorem rowCaptured_frame (s : State) :
    { rowCaptured s with
      lanes := s.lanes, marks := s.marks, stops := s.stops, ports := s.ports, freeTick := s.freeTick } = s := by
  have hfeed := feedCheck_frame s.panel.nextRow s
  have hcapture := captureLanes_frame (feedCheck s.panel.nextRow s)
  calc { rowCaptured s with
        lanes := s.lanes, marks := s.marks, stops := s.stops, ports := s.ports, freeTick := s.freeTick }
    _ = { ({ captureLanes (feedCheck s.panel.nextRow s) with lanes := (feedCheck s.panel.nextRow s).lanes } : State) with
          lanes := s.lanes, marks := s.marks, stops := s.stops, ports := s.ports, freeTick := s.freeTick } := rfl
    _ = s := by rw [hcapture, hfeed]

/-- What a row that joins or is skipped touches. -/
theorem rowJoins_frame (r : Nat) (captured : List Nat) (fails : LaneSet) (s : State) :
    { rowJoins r captured fails s with rows := s.rows, ports := s.ports } = s := rfl

theorem rowSkipped_frame (r : Nat) (captured : List Nat) (fails : LaneSet) (s : State) :
    { rowSkipped r captured fails s with
      lanes := s.lanes, marks := s.marks, freeTick := s.freeTick, panel := s.panel, stops := s.stops,
      ports := s.ports } = s := by
  have hmarks := (MarksOnly.handMarks (knotMarks s .missedKnot r captured (expectedSet s r)) s).frame
  exact congrArg (fun v : State => { v with panel := s.panel, stops := s.stops, ports := s.ports }) hmarks

theorem advanceRow_frame (s : State) : { advanceRow s with panel := s.panel } = s := rfl

/-- A row that falls due touches lanes, marks, panel, rows, the stop unit, the notices and the free values. -/
theorem rowFell_frame (s : State) :
    { rowFell s with
      lanes := s.lanes, marks := s.marks, stops := s.stops, ports := s.ports, freeTick := s.freeTick,
      panel := s.panel, rows := s.rows } = s := by
  have hcaptured := rowCaptured_frame s
  unfold rowFell
  split
  · exact congrArg (fun v : State => { v with panel := s.panel, rows := s.rows }) hcaptured
  · have hskip := rowSkipped_frame s.panel.nextRow ((lanesOf s.panelLanes).map fun l => (s.lane l).um)
      (laneSetOf (failingLanes s s.panel.nextRow)) (rowCaptured s)
    have h := congrArg (fun v : State => { v with
      lanes := s.lanes, marks := s.marks, stops := s.stops, ports := s.ports, freeTick := s.freeTick,
      panel := s.panel, rows := s.rows }) hskip
    exact h.trans (congrArg (fun v : State => { v with panel := s.panel, rows := s.rows }) hcaptured)

theorem rowCaptured_panel (s : State) : (rowCaptured s).panel = s.panel := (congrArg State.panel (rowCaptured_frame s) :)
theorem rowCaptured_rows (s : State) : (rowCaptured s).rows = s.rows := (congrArg State.rows (rowCaptured_frame s) :)
theorem rowCaptured_line (s : State) : (rowCaptured s).line = s.line := (congrArg State.line (rowCaptured_frame s) :)
theorem rowCaptured_recipe (s : State) (i : SlotNo) : (rowCaptured s).recipe i = s.recipe i :=
  (congrArg (fun v : State => v.recipe i) (rowCaptured_frame s) :)

theorem rowCaptured_lineRecipe (s : State) : (rowCaptured s).lineRecipe = s.lineRecipe := by
  rw [State.lineRecipe, rowCaptured_recipe, rowCaptured_line, State.lineRecipe]

/-- The record and the expected set of a row read the line, the panel and the recipes only. -/
theorem rowCaptured_expectedSet (s : State) (r : Nat) : expectedSet (rowCaptured s) r = expectedSet s r := by
  rw [expectedSet, State.panelWidth, rowCaptured_lineRecipe, rowCaptured_panel, expectedSet, State.panelWidth]

theorem rowCaptured_rowRecord (s : State) (r : Nat) (captured : List Nat) :
    rowRecord (rowCaptured s) r captured = rowRecord s r captured := by
  rw [rowRecord, rowCaptured_expectedSet, State.drawUm, rowCaptured_line, rowCaptured_lineRecipe, rowRecord, State.drawUm]

/-- The row that falls due joins the list, which has room for it (R123). -/
theorem rowFell_joins (h : s.rows.length < 4) :
    rowFell s = advanceRow (rowJoins s.panel.nextRow ((lanesOf s.panelLanes).map fun l => (s.lane l).um)
      (laneSetOf (failingLanes s s.panel.nextRow)) (rowCaptured s)) :=
  congrArg advanceRow (if_pos (show (rowCaptured s).rows.length < 4 by rw [rowCaptured_rows]; exact h))

/-- The row that falls due is skipped on a full list (R125). -/
theorem rowFell_skipped (h : 4 ≤ s.rows.length) :
    rowFell s = advanceRow (rowSkipped s.panel.nextRow ((lanesOf s.panelLanes).map fun l => (s.lane l).um)
      (laneSetOf (failingLanes s s.panel.nextRow)) (rowCaptured s)) :=
  congrArg advanceRow (if_neg (show ¬ (rowCaptured s).rows.length < 4 by rw [rowCaptured_rows]; exact not_lt.2 h))

/-- The panel after the last step of a row that falls due (R118). -/
def Panel.advanced (q : Panel) (rows : Nat) : Panel :=
  { q with nextRow := q.nextRow + 1, state := if q.nextRow + 1 = rows then .finishing else q.state }

theorem advanceRow_panel (s : State) : (advanceRow s).panel = s.panel.advanced s.lineRecipe.panelRows := rfl

theorem rowFell_panel_joins (h : s.rows.length < 4) : (rowFell s).panel = s.panel.advanced s.lineRecipe.panelRows := by
  rw [rowFell_joins h, advanceRow_panel]
  show (rowCaptured s).panel.advanced (rowCaptured s).lineRecipe.panelRows = _
  rw [rowCaptured_panel, rowCaptured_lineRecipe]

theorem rowSkipped_panel (r : Nat) (captured : List Nat) (fails : LaneSet) (s : State) :
    (rowSkipped r captured fails s).panel =
      { s.panel with lastClosedRow := some r, rowsSkipped := s.panel.rowsSkipped + 1 } := by
  have hpanel := (MarksOnly.handMarks (knotMarks s .missedKnot r captured (expectedSet s r)) s).panel
  show ({ (handMarks (knotMarks s .missedKnot r captured (expectedSet s r)) s).panel with
    lastClosedRow := some r
    rowsSkipped := (handMarks (knotMarks s .missedKnot r captured (expectedSet s r)) s).panel.rowsSkipped + 1 } : Panel) = _
  rw [hpanel]

theorem rowSkipped_lineRecipe (r : Nat) (captured : List Nat) (fails : LaneSet) (s : State) :
    (rowSkipped r captured fails s).lineRecipe = s.lineRecipe :=
  (congrArg State.lineRecipe (rowSkipped_frame r captured fails s) :)

theorem rowFell_panel_skipped (h : 4 ≤ s.rows.length) : (rowFell s).panel =
    { s.panel with lastClosedRow := some s.panel.nextRow, rowsSkipped := s.panel.rowsSkipped + 1 }.advanced
      s.lineRecipe.panelRows := by
  rw [rowFell_skipped h, advanceRow_panel, rowSkipped_panel, rowSkipped_lineRecipe, rowCaptured_panel,
    rowCaptured_lineRecipe]

/-- The panel keeps its net, and its row advances (R118). -/
theorem rowFell_netWidth (s : State) : (rowFell s).panel.netWidth = s.panel.netWidth := by
  by_cases h : s.rows.length < 4
  · rw [rowFell_panel_joins h]; rfl
  · rw [rowFell_panel_skipped (not_lt.1 h)]; rfl

/-! ### The panel-end test -/

theorem panelEndMet_iff (s : State) : panelEndMet s = true ↔
    s.panel.state = .finishing ∧ s.rows = [] ∧ s.panel.tailReached = true := by
  simp [panelEndMet, and_assoc]

/-- A panel's cut that falls due at the draw is not late (R144). -/
theorem cutIsLate_draw (lanes : LaneSet) (s : State) : cutIsLate s (.panel lanes) s.drawUm = false :=
  decide_eq_false (by simp)

/-- The panel waits for its cut, which falls due at the draw (R133). -/
theorem panelEndTest_met (h : panelEndMet s = true) :
    panelEndTest s = { s with
      panel := { s.panel with state := .cutWait }, cuts := s.cuts.withDue (.panel s.panelLanes) s.drawUm false,
      ports := (panelEndTest s).ports } := by
  have hframe := cutFallsDue_frame (.panel s.panelLanes) s.drawUm (s.modPanel fun p => { p with state := .cutWait })
  have hlate : cutIsLate (s.modPanel fun p => { p with state := .cutWait }) (.panel s.panelLanes) s.drawUm = false :=
    cutIsLate_draw s.panelLanes s
  rw [hlate] at hframe
  rw [panelEndTest, if_pos h]
  exact hframe

theorem panelEndTest_unmet (h : ¬ panelEndMet s = true) : panelEndTest s = s := if_neg h

/-- A panel-end test touches the panel's state, the cuts and the notices (R133). -/
theorem panelEndTest_frame (s : State) :
    { panelEndTest s with panel := s.panel, cuts := s.cuts, ports := s.ports } = s := by
  by_cases h : panelEndMet s = true
  · rw [panelEndTest_met h]
  · rw [panelEndTest_unmet h]

theorem heard_panelEndTest (s : State) : Heard s (panelEndTest s) := by
  unfold panelEndTest
  split
  · exact (Heard.of_ports rfl).trans
      (heard_cutFallsDue (.panel s.panelLanes) s.drawUm (s.modPanel fun p => { p with state := .cutWait }))
  · exact .refl s

theorem panelEndTest_panel (s : State) : (panelEndTest s).panel =
    { s.panel with state := if panelEndMet s then .cutWait else s.panel.state } := by
  by_cases h : panelEndMet s = true
  · rw [panelEndTest_met h, if_pos h]
  · rw [panelEndTest_unmet h, if_neg h]

/-- A panel's cut that joins REQUESTED is shown with CUT_DUE (R143). -/
theorem panelEndTest_cutDue (h : panelEndMet s = true)
    (hreq : ∃ e ∈ (panelEndTest s).cuts.list.drop s.cuts.list.length, e.state = .requested) :
    Raised .cutDue (panelEndTest s) := by
  rw [panelEndTest, if_pos h] at hreq ⊢
  exact (cutFallsDue_cutDue (s := s.modPanel fun p => { p with state := .cutWait }) (w := .panel s.panelLanes)
    (due := s.drawUm) hreq).1

/-! ### A row that closes -/

/-- The state of a row that has left the list, before the panel-end test (R128, R130). -/
def rowLeft (row : RowRecord) (ms : List Mark) (count : Panel → Panel) (s : State) : State :=
  let t := handMarks ms s
  State.raise .rowClosed (lanesOfMarks ms)
    { t with
      rows := t.rows.tail
      panel := count { t.panel with lastClosedRow := newerRow t.panel.lastClosedRow row.row } }

theorem closeRow_eq (row : RowRecord) (ms : List Mark) (count : Panel → Panel) (s : State) :
    closeRow row ms count s = panelEndTest (rowLeft row ms count s) := rfl

theorem rowLeft_rows (row : RowRecord) (ms : List Mark) (count : Panel → Panel) (s : State) :
    (rowLeft row ms count s).rows = s.rows.tail :=
  congrArg List.tail (MarksOnly.handMarks ms s).rows

theorem rowLeft_panel (row : RowRecord) (ms : List Mark) (count : Panel → Panel) (s : State) :
    (rowLeft row ms count s).panel = count { s.panel with lastClosedRow := newerRow s.panel.lastClosedRow row.row } := by
  show count { (handMarks ms s).panel with lastClosedRow := newerRow (handMarks ms s).panel.lastClosedRow row.row } = _
  rw [(MarksOnly.handMarks ms s).panel]

theorem rowLeft_frame (row : RowRecord) (ms : List Mark) (count : Panel → Panel) (s : State) :
    { rowLeft row ms count s with
      lanes := s.lanes, marks := s.marks, freeTick := s.freeTick, rows := s.rows, panel := s.panel,
      ports := s.ports } = s :=
  congrArg (fun v : State => { v with rows := s.rows, panel := s.panel, ports := s.ports })
    (MarksOnly.handMarks ms s).frame

end Sys2Proof.Machine
end


section
/-! PROOFS. The decoders and the draw count (02_length_tallies.md R24, R32, R33). -/

namespace Sys2Proof.Machine

variable {s t u : State}

/-! ### The decoders -/

/-- A wheel count of a position moves that decoder's reference only (R24). -/
theorem wheelCount_inputs (d : Direction) (k : PosNo) (s : State) :
    (wheelCount d k s).inputs = (s.modWheel k (pairStep d)).inputs := by
  have hcounted : (counted d k s).inputs = (s.modWheel k (pairStep d)).inputs := by rw [counted_eq]
  cases hmap : (s.position k).mappedLane with
  | none => rw [wheelCount_none d hmap, hcounted]
  | some l =>
    by_cases hi : (s.lane l).state = .idle
    · rw [wheelCount_idle d hmap hi, hcounted]
    · exact (inputs_of_fixed (wheelCount_local d hmap hi).fixed).trans hcounted

theorem modWheel_wheels (k j : PosNo) (f : Pair → Pair) (s : State) :
    (s.modWheel k f).inputs.wheels[j] = if j = k then f s.inputs.wheels[k] else s.inputs.wheels[j] := by
  simp only [State.modWheel, Fin.getElem_fin, Vector.getElem_set, Fin.ext_iff, eq_comm]

theorem pairStep_forward (q : Pair) : pairStep .forward q = (match q with
    | (false, false) => (true, false) | (true, false) => (true, true)
    | (true, true) => (false, true) | (false, true) => (false, false)) := by
  obtain ⟨a, b⟩ := q; cases a <;> cases b <;> rfl

theorem pairStep_reverse (q : Pair) : pairStep .reverse q = (match q with
    | (false, false) => (false, true) | (true, false) => (false, false)
    | (true, true) => (true, false) | (false, true) => (true, true)) := by
  obtain ⟨a, b⟩ := q; cases a <;> cases b <;> rfl

theorem drawCount_inputs (d : Direction) (s : State) : (drawCount d s).inputs = (s.modDraw (pairStep d)).inputs := by
  rw [drawCount]
  exact inputs_of_fixed (drawWatchers_fixed _)

/-! ### What the tests of a draw count leave -/

/-- What the tests of a draw count leave: ports and inputs, line and net; and every due cut that is new is the
panel's own (R33, R133). -/
structure DrawKept (s t : State) : Prop where
  fixed : t.fixed = s.fixed
  line : t.line = s.line
  netWidth : t.panel.netWidth = s.panel.netWidth
  cuts : ∀ d ∈ t.cuts.dueCuts, (∃ e ∈ s.cuts.dueCuts, e.what = d.what) ∨ d.what = .panel s.panelLanes

namespace DrawKept

protected theorem refl (s : State) : DrawKept s s := ⟨rfl, rfl, rfl, fun d hd => .inl ⟨d, hd, rfl⟩⟩

theorem panelLanes (h : DrawKept s t) : t.panelLanes = s.panelLanes := by
  rw [State.panelLanes, State.panelWidth, h.netWidth, State.panelLanes, State.panelWidth]

theorem trans (h : DrawKept s t) (h' : DrawKept t u) : DrawKept s u where
  fixed := h'.fixed.trans h.fixed
  line := h'.line.trans h.line
  netWidth := h'.netWidth.trans h.netWidth
  cuts d hd := by
    obtain ⟨e, he, hw⟩ | hp := h'.cuts d hd
    · obtain ⟨f, hf, hw'⟩ | hp := h.cuts e he
      · exact .inl ⟨f, hf, hw'.trans hw⟩
      · exact .inr (hw.symm.trans hp)
    · exact .inr (by rw [hp, h.panelLanes])

theorem of_same (hfixed : t.fixed = s.fixed) (hline : t.line = s.line) (hnet : t.panel.netWidth = s.panel.netWidth)
    (hcuts : t.cuts = s.cuts) : DrawKept s t :=
  ⟨hfixed, hline, hnet, fun d hd => .inl ⟨d, hcuts ▸ hd, rfl⟩⟩

end DrawKept

/-- The due cuts after a cut has fallen due: one more. -/
theorem mem_dueCuts_withDue {v : CutUnit} {w : CutWhat} {due : Nat} {late : Bool} {d : DeferredCut}
    (h : d ∈ (v.withDue w due late).dueCuts) : d ∈ v.dueCuts ∨ d.what = w := by
  unfold CutUnit.withDue at h
  split at h
  · simp only [CutUnit.dueCuts, List.mem_append, List.mem_singleton] at h ⊢
    obtain h | h | rfl := h
    · exact .inl (.inl h)
    · exact .inl (.inr h)
    · exact .inr rfl
  · simp only [CutUnit.dueCuts, List.map_append, List.mem_append, List.map_cons, List.map_nil, List.mem_singleton] at h ⊢
    obtain (h | rfl) | h := h
    · exact .inl (.inl h)
    · exact .inr rfl
    · exact .inl (.inr h)

theorem drawKept_panelEndTest (s : State) : DrawKept s (panelEndTest s) where
  fixed := panelEndTest_fixed s
  line := (congrArg State.line (panelEndTest_frame s) :)
  netWidth := by rw [panelEndTest_panel]
  cuts d hd := by
    by_cases h : panelEndMet s = true
    · rw [panelEndTest_met h] at hd
      exact (mem_dueCuts_withDue hd).imp (fun hm => ⟨d, hm, rfl⟩) id
    · rw [panelEndTest_unmet h] at hd
      exact .inl ⟨d, hd, rfl⟩

theorem drawKept_rowFallsDue (s : State) : DrawKept s (rowFallsDue s) := by
  have hframe := rowFell_frame s
  have hend := drawKept_panelEndTest (rowFell s)
  rw [← rowFallsDue_eq] at hend
  refine ⟨rowFallsDue_fixed s, hend.line.trans (congrArg State.line hframe :), hend.netWidth.trans (rowFell_netWidth s),
    fun d hd => ?_⟩
  have hcuts : (rowFell s).cuts = s.cuts := (congrArg State.cuts hframe :)
  have hlanes : (rowFell s).panelLanes = s.panelLanes := by
    rw [State.panelLanes, State.panelWidth, rowFell_netWidth, State.panelLanes, State.panelWidth]
  rw [← hcuts, ← hlanes]
  exact hend.cuts d hd

theorem drawKept_rowTimesOut (row : RowRecord) (s : State) : DrawKept s (rowTimesOut row s) := by
  have hend := drawKept_panelEndTest (rowLeft row (knotMarks s .missedKnot row.row row.captured row.expected)
    (fun p => { p with rowsTimedOut := p.rowsTimedOut + 1 }) s)
  have hframe := rowLeft_frame row (knotMarks s .missedKnot row.row row.captured row.expected)
    (fun p => { p with rowsTimedOut := p.rowsTimedOut + 1 }) s
  have hpanel := rowLeft_panel row (knotMarks s .missedKnot row.row row.captured row.expected)
    (fun p => { p with rowsTimedOut := p.rowsTimedOut + 1 }) s
  rw [← closeRow_eq] at hend
  have hfixed : (rowTimesOut row s).fixed = s.fixed := rowTimesOut_fixed s row
  rw [rowTimesOut] at hfixed ⊢
  generalize rowLeft row (knotMarks s .missedKnot row.row row.captured row.expected)
    (fun p => { p with rowsTimedOut := p.rowsTimedOut + 1 }) s = v at hend hframe hpanel
  have hcuts : v.cuts = s.cuts := (congrArg State.cuts hframe :)
  have hnet : v.panel.netWidth = s.panel.netWidth := by rw [hpanel]
  have hlanes : v.panelLanes = s.panelLanes := by
    rw [State.panelLanes, State.panelWidth, hnet, State.panelLanes, State.panelWidth]
  refine ⟨hfixed, hend.line.trans (congrArg State.line hframe :), hend.netWidth.trans hnet, fun d hd => ?_⟩
  rw [← hcuts, ← hlanes]
  exact hend.cuts d hd

theorem drawKept_rowTimeoutIfMet (s : State) : DrawKept s (rowTimeoutIfMet s) := by
  unfold rowTimeoutIfMet
  split
  · exact .refl s
  · split
    · exact drawKept_rowTimesOut _ s
    · exact .refl s

theorem drawKept_rowFallsDueIfMet (s : State) : DrawKept s (rowFallsDueIfMet s) := by
  unfold rowFallsDueIfMet
  split
  · exact drawKept_rowFallsDue s
  · exact .refl s

theorem drawKept_tailReachedIfMet (s : State) : DrawKept s (tailReachedIfMet s) := by
  unfold tailReachedIfMet
  split
  · exact (DrawKept.of_same (s := s) (t := s.modPanel fun p => { p with tailReached := true }) rfl rfl rfl rfl).trans
      (drawKept_panelEndTest _)
  · exact .refl s

/-! ### The order of the draw's tests -/

theorem rowTimeoutMet_eq (s : State) :
    rowTimeoutMet s = (s.rows.take 1).any fun x => decide (x.timeoutDraw ≤ s.drawUm) := by
  unfold rowTimeoutMet
  cases s.rows with
  | nil => rfl
  | cons x rest => simp

theorem rowDueMet_iff (s : State) :
    rowDueMet s = true ↔ s.panel.state = .laying ∧ rowDue s s.panel.nextRow ≤ s.drawUm := by
  simp [rowDueMet]

/-- The timeout of the oldest row does not keep the next one from falling due (R118, R130). -/
theorem rowDueMet_rowTimeoutIfMet (h : rowDueMet s = true) : rowDueMet (rowTimeoutIfMet s) = true := by
  obtain ⟨hlaying, hdue⟩ := (rowDueMet_iff s).1 h
  unfold rowTimeoutIfMet
  split
  · exact h
  · next row rest hrows =>
    split
    · have hpanel := rowLeft_panel row (knotMarks s .missedKnot row.row row.captured row.expected)
        (fun p => { p with rowsTimedOut := p.rowsTimedOut + 1 }) s
      have hframe := rowLeft_frame row (knotMarks s .missedKnot row.row row.captured row.expected)
        (fun p => { p with rowsTimedOut := p.rowsTimedOut + 1 }) s
      rw [rowTimesOut, closeRow_eq]
      generalize rowLeft row (knotMarks s .missedKnot row.row row.captured row.expected)
        (fun p => { p with rowsTimedOut := p.rowsTimedOut + 1 }) s = v at hpanel hframe
      have hstate : v.panel.state = .laying := by rw [hpanel]; exact hlaying
      have hline : v.line = s.line := (congrArg State.line hframe :)
      have hrecipe : v.lineRecipe = s.lineRecipe := (congrArg State.lineRecipe hframe :)
      rw [panelEndTest_unmet fun hm => by
        rw [panelEndMet_iff, hstate] at hm; exact absurd hm.1 (by decide)]
      refine (rowDueMet_iff v).2 ⟨hstate, ?_⟩
      rw [rowDue, State.drawUm, hline, hrecipe, hpanel]
      exact hdue
    · exact h

/-- The row tests of a draw count: in either order where both are met (R125; assumption log 6). -/
theorem drawRowEvents_cases (s : State) :
    ((rowDueMet s && rowTimeoutMet s) = false ∧ drawRowEvents s = rowFallsDueIfMet (rowTimeoutIfMet s)) ∨
    ((rowDueMet s && rowTimeoutMet s) = true ∧
      (drawRowEvents s = rowFallsDueIfMet (rowTimeoutIfMet (s.useFree 1)) ∨
        drawRowEvents s = rowTimeoutIfMet (rowFallsDueIfMet (s.useFree 1)))) := by
  unfold drawRowEvents
  cases hboth : rowDueMet s && rowTimeoutMet s with
  | false => exact .inl ⟨rfl, if_neg Bool.false_ne_true⟩
  | true =>
    have hdue : rowDueMet (s.useFree 1) = true := (Bool.and_eq_true_iff.1 hboth).1
    refine .inr ⟨rfl, ?_⟩
    rw [if_pos rfl, rowFallsDueIfMet, if_pos (rowDueMet_rowTimeoutIfMet hdue), rowFallsDueIfMet, if_pos hdue]
    cases s.freeOrder with
    | true => exact .inr (if_pos rfl)
    | false => exact .inl (if_neg Bool.false_ne_true)

theorem drawKept_useFree (n : Nat) (s : State) : DrawKept s (s.useFree n) := .of_same rfl rfl rfl rfl

theorem drawKept_drawEvents (s : State) : DrawKept s (tailReachedIfMet (drawRowEvents s)) := by
  refine DrawKept.trans ?_ (drawKept_tailReachedIfMet (drawRowEvents s))
  obtain ⟨-, h⟩ | ⟨-, h | h⟩ := drawRowEvents_cases s
  · rw [h]; exact (drawKept_rowTimeoutIfMet s).trans (drawKept_rowFallsDueIfMet _)
  · rw [h]
    exact ((drawKept_useFree 1 s).trans (drawKept_rowTimeoutIfMet _)).trans (drawKept_rowFallsDueIfMet _)
  · rw [h]
    exact ((drawKept_useFree 1 s).trans (drawKept_rowFallsDueIfMet _)).trans (drawKept_rowTimeoutIfMet _)

/-- The late test that ends a draw count, where every PANEL cut of the block is of the given lanes (R144). -/
theorem retestLate_draw (h : DrawKept s t) {lanes : LaneSet}
    (hcuts : ∀ d ∈ t.cuts.dueCuts, d.what.isCoil = true ∨ d.what = .panel lanes) :
    retestLate (fun w => !w.isCoil) t = t.lateTested (fun w => !w.isCoil)
      (fun due => decide (due + (s.recipe s.line.lineSlot).overlengthMm * 1000 < s.line.drawTally / 256)) lanes := by
  refine retestLate_eq (fun d _ hsel => ?_) fun d hd hsel => lanes_panel hsel (hcuts d hd)
  rw [cutIsLate_panel hsel, h.line, State.recipe, recipes_of_fixed h.fixed]
  rfl

/-- A draw count's tests where no row stands and the panel lays no rows: the late test alone. -/
theorem drawEvents_none (hstate : s.panel.state = .none ∨ s.panel.state = .cutWait) (hrows : s.rows = []) :
    tailReachedIfMet (drawRowEvents s) = s := by
  have hdue : rowDueMet s = false := by
    obtain h | h := hstate <;> simp [rowDueMet, h]
  have htail : ¬ tailMet s = true := by
    obtain h | h := hstate <;> simp [tailMet, h]
  have htimeout : rowTimeoutIfMet s = s := by rw [rowTimeoutIfMet, hrows]
  have hevents : drawRowEvents s = s := by
    rw [drawRowEvents, hdue, Bool.false_and, if_neg Bool.false_ne_true, htimeout, rowFallsDueIfMet, hdue,
      if_neg Bool.false_ne_true]
  rw [hevents, tailReachedIfMet, if_neg htail]

theorem lateTested_line (s : State) (sel : CutWhat → Bool) (past : Nat → Bool) (lanes : LaneSet) :
    (s.lateTested sel past lanes).line = s.line := by
  unfold State.lateTested
  split <;> rfl

theorem retestLate_line (sel : CutWhat → Bool) (s : State) : (retestLate sel s).line = s.line := by
  unfold retestLate
  rw [foldl_keeps State.line (fun (t : State) (d : DeferredCut) => t.requestStop .cutLate d.what.lanes) fun _ _ => rfl]
  rfl

/-- Settles O37: the decoders by their pairs, and the draw count by the order of its tests (R24, R32, R33). -/
theorem decodersAndDrawFollowTheirLines : Obligations.DecodersAndDrawFollowTheirLines := by
  refine ⟨fun s k => ?decoders, fun s d => ?draw⟩
  case decoders =>
    have hwheel : ∀ d, (wheelCount d k s).inputs.draw = s.inputs.draw ∧
        (∀ j, j ≠ k → (wheelCount d k s).inputs.wheels[j] = s.inputs.wheels[j]) ∧
        (wheelCount d k s).inputs.wheels[k] = pairStep d s.inputs.wheels[k] := fun d => by
      rw [wheelCount_inputs]
      exact ⟨rfl, fun j hj => by rw [modWheel_wheels, if_neg hj], by rw [modWheel_wheels, if_pos rfl]⟩
    refine ⟨⟨wheelCount .forward k s, rfl, ?_⟩, ⟨wheelCount .reverse k s, rfl, ?_⟩, ⟨drawCount .forward s, rfl, ?_⟩,
      ⟨drawCount .reverse s, rfl, ?_⟩, rfl, rfl⟩
    · obtain ⟨h1, h2, h3⟩ := hwheel .forward
      exact ⟨h1, h2, h3.trans (pairStep_forward _)⟩
    · obtain ⟨h1, h2, h3⟩ := hwheel .reverse
      exact ⟨h1, h2, h3.trans (pairStep_reverse _)⟩
    · rw [drawCount_inputs]; exact ⟨rfl, pairStep_forward _⟩
    · rw [drawCount_inputs]; exact ⟨rfl, pairStep_reverse _⟩
  case draw =>
    intro after past counted rc due both timeoutFirst rowFirst
    have hexec : exec (.drawCount d) s = .next (drawWatchers counted) := by cases d <;> rfl
    have hboth : (rowDueMet counted && rowTimeoutMet counted) = both := by rw [rowTimeoutMet_eq]; rfl
    refine ⟨fun hcuts => ?ordered, ?line, fun hstate hrows lanes hcuts => ?quiet⟩
    case quiet =>
      rw [hexec, drawWatchers, drawEvents_none (s := counted) hstate hrows]
      exact congrArg Host.Outcome.next (retestLate_draw (.refl counted) hcuts)
    case line =>
      refine ⟨drawWatchers counted, hexec, ?_⟩
      rw [drawWatchers, retestLate_line, (drawKept_drawEvents counted).line]
    case ordered =>
      have hkept := drawKept_drawEvents counted
      have htest : drawWatchers counted = (tailReachedIfMet (drawRowEvents counted)).lateTested (fun w => !w.isCoil) past
          (lanesBelow (s.panel.netWidth.getD 0)) :=
        retestLate_draw hkept fun c hc => by
          obtain ⟨e, he, hw⟩ | hp := hkept.cuts c hc
          · rw [← hw]; exact hcuts e he
          · exact .inr hp
      rw [hexec, htest]
      obtain ⟨hb, hevents⟩ | ⟨hb, hevents⟩ := drawRowEvents_cases counted
      · have hfalse : both = false := hboth.symm.trans hb
        rw [hfalse]
        refine ⟨timeoutFirst, List.mem_singleton_self _, _, ?_, rfl⟩
        rw [hevents]
        rfl
      · have htrue : both = true := hboth.symm.trans hb
        rw [htrue]
        obtain hevents | hevents := hevents
        · refine ⟨timeoutFirst, by simp, _, ?_, rfl⟩
          rw [hevents]
          rfl
        · refine ⟨rowFirst, by simp, _, ?_, rfl⟩
          rw [hevents]
          rfl

end Sys2Proof.Machine
end


section
/-! PROOFS. PANEL_START and PANEL_HALT (07_knotting_schedule.md R114 to R118). -/

namespace Sys2Proof.Machine

variable {s t u : State} {l : LaneNo} {p : PortNo}

/-! ### The lanes of a net -/

theorem mem_lanesOf_lanesBelow (w : Nat) (l : LaneNo) : l ∈ lanesOf (lanesBelow w) ↔ l.val < w := by
  rw [mem_lanesOf_iff]
  show laneIn (lanesBelow w) l = true ↔ _
  rw [laneIn_lanesBelow, decide_eq_true_iff]

theorem lanesOf_lanesBelow (w : Nat) : lanesOf (lanesBelow w) = allLanes.filter fun l => decide (l.val < w) := by
  rw [lanesOf]
  exact List.filter_congr fun l _ => laneIn_lanesBelow w l

theorem all_lanesOf_iff (w : Nat) (f : LaneNo → Bool) :
    (lanesOf (lanesBelow w)).all f = true ↔ ∀ l : LaneNo, l.val < w → f l = true := by
  rw [List.all_eq_true]
  exact forall_congr' fun l => by rw [mem_lanesOf_lanesBelow]

/-! ### The opening of a panel -/

/-- The panel record at its opening (R115). -/
def Panel.opened (width draw : Nat) : Panel :=
  { state := .laying, netWidth := some width, drawStart := draw, nextRow := 0, lastClosedRow := none,
    tailReached := false, halt := false, rowsKnotted := 0, rowsTimedOut := 0, rowsSkipped := 0 }

/-- The state at the opening of a panel, before row 0 (R115). -/
def panelOpened (s : State) : State := { s with panel := .opened s.lineRecipe.netWidth s.drawUm }

theorem openPanel_eq (s : State) : openPanel s = rowFallsDueIfMet (panelOpened s) := rfl

theorem rowDueMet_panelOpened (s : State) : rowDueMet (panelOpened s) = true ↔ s.lineRecipe.leadInMm = 0 := by
  rw [rowDueMet_iff]
  show (PanelState.laying = .laying ∧ s.drawUm + s.lineRecipe.leadInMm * 1000 + 0 * s.lineRecipe.pitch * 100 ≤ s.drawUm) ↔ _
  simp

/-- With a lead-in the panel opens and no row falls due (R115, R118). -/
theorem openPanel_leadIn (h : 0 < s.lineRecipe.leadInMm) : openPanel s = panelOpened s := by
  rw [openPanel_eq, rowFallsDueIfMet, if_neg]
  rw [rowDueMet_panelOpened]
  omega

theorem captureLanes_lane (s : State) (m : LaneNo) : (captureLanes s).lane m =
    if m.val < s.panelWidth then { s.lane m with lastRowTally := some (s.lane m).um } else s.lane m := by
  have h := forLanes_modEach_lane (fun _ x => { x with lastRowTally := some x.um }) m (nodup_lanesOf s.panelLanes) s
  simp only [State.panelLanes, mem_lanesOf_lanesBelow] at h
  exact h

/-- The state at a panel's opening whose row 0 has fallen due (R118, R120, R123). -/
def firstRowDue (s : State) : State :=
  advanceRow (rowJoins 0 ((lanesOf s.netSet).map fun l => (s.lane l).um) (laneSetOf []) (captureLanes (panelOpened s)))

/-- Without a lead-in row 0 falls due within the opening, and joins the empty list (R115, R118). -/
theorem openPanel_atOnce (h : s.lineRecipe.leadInMm = 0) (hrows : s.rows = []) : openPanel s = firstRowDue s := by
  have hrow : rowFell (panelOpened s) = firstRowDue s := by
    rw [rowFell_joins (show (panelOpened s).rows.length < 4 by show s.rows.length < 4; rw [hrows]; decide)]
    rfl
  have hrows' : (firstRowDue s).rows = [rowRecord (captureLanes (panelOpened s)) 0 ((lanesOf s.netSet).map fun l => (s.lane l).um)] := by
    show (captureLanes (panelOpened s)).rows ++ _ = _
    have hkept : (captureLanes (panelOpened s)).rows = s.rows := (congrArg State.rows (captureLanes_frame (panelOpened s)) :)
    rw [hkept, hrows]
    rfl
  rw [openPanel_eq, rowFallsDueIfMet, if_pos ((rowDueMet_panelOpened s).2 h), rowFallsDue_eq, hrow,
    panelEndTest_unmet]
  rw [panelEndMet_iff, hrows']
  exact fun hm => absurd hm.2.1 nofun

/-- The expected set of row 0: the selvedge, or the pattern's first row, within the net (R119). -/
theorem expectedSet_first (s : State) : expectedSet s 0 =
    (if 0 < s.lineRecipe.selvedgeRows then s.lineRecipe.selvedgeMask else s.lineRecipe.pattern[0]) &&&
      BitVec.ofNat 7 (2 ^ (s.panelWidth - 1) - 1) := by
  have hfirst : s.lineRecipe.patternRow ((0 - s.lineRecipe.selvedgeRows) % s.lineRecipe.patternLen) =
      s.lineRecipe.pattern[0] := by
    rw [Nat.zero_sub, Nat.zero_mod]
    rfl
  show (if 0 < s.lineRecipe.selvedgeRows then s.lineRecipe.selvedgeMask else _) &&& junctionsInNet s.panelWidth = _
  rw [hfirst]
  rfl

/-- What row 0 at the opening touches: the captures, the panel, the row list and the notices. -/
theorem firstRowDue_frame (s : State) :
    { firstRowDue s with lanes := s.lanes, panel := s.panel, rows := s.rows, ports := s.ports } = s :=
  congrArg (fun v : State => { v with panel := s.panel, rows := s.rows, ports := s.ports })
    (captureLanes_frame (panelOpened s))

theorem firstRowDue_lane (s : State) (m : LaneNo) : (firstRowDue s).lane m =
    if m.val < s.lineRecipe.netWidth then { s.lane m with lastRowTally := some (s.lane m).um } else s.lane m :=
  captureLanes_lane (panelOpened s) m

theorem captured_panelOpened (s : State) :
    { captureLanes (panelOpened s) with lanes := (panelOpened s).lanes } = panelOpened s :=
  captureLanes_frame (panelOpened s)

theorem firstRowDue_panel (s : State) :
    (firstRowDue s).panel = (Panel.opened s.lineRecipe.netWidth s.drawUm).advanced s.lineRecipe.panelRows := by
  have hpanel : (captureLanes (panelOpened s)).panel = (panelOpened s).panel := (congrArg State.panel (captured_panelOpened s) :)
  have hrecipe : (captureLanes (panelOpened s)).lineRecipe = (panelOpened s).lineRecipe :=
    (congrArg State.lineRecipe (captured_panelOpened s) :)
  show (captureLanes (panelOpened s)).panel.advanced (captureLanes (panelOpened s)).lineRecipe.panelRows = _
  rw [hpanel, hrecipe]
  rfl

theorem firstRowDue_rows (hrows : s.rows = []) : (firstRowDue s).rows =
    [{ row := 0, dueDraw := s.drawUm, timeoutDraw := s.drawUm + s.lineRecipe.rowTimeout * 100,
       expected := (if 0 < s.lineRecipe.selvedgeRows then s.lineRecipe.selvedgeMask else s.lineRecipe.pattern[0]) &&&
         BitVec.ofNat 7 (2 ^ (s.lineRecipe.netWidth - 1) - 1),
       captured := (allLanes.filter fun l => decide (l.val < s.lineRecipe.netWidth)).map fun l => (s.lane l).um }] := by
  have hkept : (captureLanes (panelOpened s)).rows = s.rows := (congrArg State.rows (captureLanes_frame (panelOpened s)) :)
  have hrecord : rowRecord (captureLanes (panelOpened s)) 0 ((lanesOf s.netSet).map fun l => (s.lane l).um) =
      rowRecord (panelOpened s) 0 ((lanesOf s.netSet).map fun l => (s.lane l).um) :=
    (congrArg (fun v : State => rowRecord v 0 ((lanesOf s.netSet).map fun l => (s.lane l).um)) (captured_panelOpened s) :)
  show (captureLanes (panelOpened s)).rows ++ [rowRecord (captureLanes (panelOpened s)) 0
    ((lanesOf s.netSet).map fun l => (s.lane l).um)] = _
  rw [hkept, hrows, hrecord, rowRecord, expectedSet_first, State.netSet, lanesOf_lanesBelow]
  rfl

theorem firstRowDue_raised (s : State) : Raised .rowDue (firstRowDue s) := raised_raise _ _ _

/-! ### The services -/

theorem servePanelStart_eq (s : State) : servePanelStart s =
    if s.line.mode = .net ∧ s.panel.state = .none ∧
        ∀ l : LaneNo, l.val < s.lineRecipe.netWidth → (s.lane l).state = .run ∨ (s.lane l).state = .splicing
      then accept (openPanel s) else refuse .state s := by
  have hall : (lanesOf s.netSet).all (fun l => (s.lane l).state == .run || (s.lane l).state == .splicing) = true ↔
      ∀ l : LaneNo, l.val < s.lineRecipe.netWidth → (s.lane l).state = .run ∨ (s.lane l).state = .splicing := by
    rw [State.netSet, all_lanesOf_iff]
    simp only [Bool.or_eq_true, beq_iff_eq]
  unfold servePanelStart
  cases hmode : s.line.mode with
  | rope => rw [if_pos rfl, if_neg fun h => absurd h.1 (by decide)]
  | net =>
    rw [if_neg (by decide)]
    by_cases hopen : s.panel.state = .none
    · rw [if_neg (mt (panelOpen_eq_true_iff s).1 (not_not.2 hopen))]
      by_cases hlanes : ∀ l : LaneNo, l.val < s.lineRecipe.netWidth → (s.lane l).state = .run ∨ (s.lane l).state = .splicing
      · rw [if_pos (hall.2 hlanes), if_pos ⟨rfl, hopen, hlanes⟩]
      · rw [if_neg (mt hall.1 hlanes), if_neg fun h => hlanes h.2.2]
    · rw [if_pos ((panelOpen_eq_true_iff s).2 hopen), if_neg fun h => hopen h.2.1]

theorem servePanelHalt_eq (s : State) : servePanelHalt s =
    if s.line.mode = .net ∧ s.panel.state ≠ .none then accept { s with panel := { s.panel with halt := true } }
    else refuse .state s := by
  unfold servePanelHalt
  simp only [panelOpen_eq_true_iff]
  rfl

/-- Settles O44: the three checks, and the opening by whether row 0 is due within it (R114 to R116, R118). -/
theorem panelOpensAndHalts : Obligations.PanelOpensAndHalts := by
  intro s p hr r draw ready
  have hrecipe : s.lineRecipe = r := rfl
  have hyes : ready → servePanelStart s = accept (openPanel s) := fun h => (servePanelStart_eq s).trans (if_pos h)
  have hno : ¬ ready → servePanelStart s = refuse .state s := fun h => (servePanelStart_eq s).trans (if_neg h)
  refine ⟨fun h => ?refused, fun h hlead => ?later, fun h hlead hrows => ?atOnce, fun hm ho => ?halts, fun h => ?noPanel⟩
  case refused => rw [exec_panelStart_ready hr, hno h]; rfl
  case later => rw [exec_panelStart_ready hr, hyes h, openPanel_leadIn hlead]; rfl
  case halts => rw [exec_panelHalt_ready hr, servePanelHalt_eq, if_pos ⟨hm, ho⟩]; rfl
  case noPanel =>
    rw [exec_panelHalt_ready hr, servePanelHalt_eq, if_neg]
    · rfl
    · rintro ⟨hm, ho⟩
      exact h.elim (fun hrope => absurd (hm.symm.trans hrope) (by decide)) ho
  case atOnce =>
    have hframe := firstRowDue_frame s
    refine ⟨firstRowDue s, by rw [exec_panelStart_ready hr, hyes h, openPanel_atOnce hlead hrows]; rfl, ?_, firstRowDue_rows hrows, firstRowDue_lane s, firstRowDue_raised s,
      (congrArg State.positions hframe :), (congrArg State.cals hframe :), (congrArg State.recipes hframe :),
      (congrArg State.marks hframe :), (congrArg State.line hframe :), (congrArg State.cuts hframe :),
      (congrArg State.stops hframe :), (congrArg State.forcing hframe :), (congrArg State.inputs hframe :)⟩
    rw [firstRowDue_panel, hrecipe, Panel.advanced]
    simp only [Panel.opened, Nat.zero_add, eq_comm (a := 1)]
    rfl

end Sys2Proof.Machine
end


section
/-! PROOFS. Knot marks and the rows that close (07_knotting_schedule.md R125 to R133). -/

namespace Sys2Proof.Machine

variable {s t u : State} {l : LaneNo}

/-! ### Knot marks -/

/-- The mark of a kind that a row hands for the junction whose lower lane is `l` (R125, R128, R130). -/
def knotMark (s : State) (kind : MarkKind) (r : Nat) (captured : List Nat) (l : LaneNo) : Mark :=
  { kind := kind, lane := l, position := s.knotterOf (capturedAt captured l.val), extent := none, sense := none,
    row := some r, junction := some l.val, made := 0 }

theorem mem_junctionsOf (js : JunctionSet) (j : Nat) : j ∈ junctionsOf js ↔ js.getLsbD j = true := by
  have hlow : j ∈ [0, 1, 2, 3, 4, 5, 6] ↔ j < 7 := by simp; omega
  rw [junctionsOf, List.mem_filter, hlow]
  refine and_iff_right_of_imp fun h => ?_
  by_contra hj
  rw [junctionIn, BitVec.getLsbD_of_ge js j (not_lt.1 hj)] at h
  exact Bool.false_ne_true h

theorem laneOfJunction_val (l : LaneNo) : laneOfJunction l.val = l := Fin.ofNat_val_eq_self ..

theorem junction_lt {js : JunctionSet} {j : Nat} (h : js.getLsbD j = true) : j < 7 := BitVec.lt_of_getLsbD h

/-- The knot marks of a set: one for each of its junctions, on its lower lane (R79). -/
theorem mem_knotMarks {kind : MarkKind} {r : Nat} {captured : List Nat} {js : JunctionSet} {m : Mark} :
    m ∈ knotMarks s kind r captured js ↔ ∃ l : LaneNo, js.getLsbD l.val = true ∧ m = knotMark s kind r captured l := by
  unfold knotMarks
  rw [List.mem_map]
  constructor
  · rintro ⟨j, hj, rfl⟩
    have hbit := (mem_junctionsOf js j).1 hj
    have hlt : j < 8 := by have := junction_lt hbit; omega
    have hlane : laneOfJunction j = ⟨j, hlt⟩ := laneOfJunction_val ⟨j, hlt⟩
    exact ⟨⟨j, hlt⟩, hbit, by rw [hlane]; rfl⟩
  · rintro ⟨l, hl, rfl⟩
    exact ⟨l.val, (mem_junctionsOf js _).2 hl, by rw [laneOfJunction_val]; rfl⟩

theorem knotMarks_length (s : State) (kind : MarkKind) (r : Nat) (captured : List Nat) (js : JunctionSet) :
    (knotMarks s kind r captured js).length = ([0, 1, 2, 3, 4, 5, 6].filter fun j => js.getLsbD j).length :=
  List.length_map _

theorem nodup_junctionsOf (js : JunctionSet) : (junctionsOf js).Nodup :=
  List.Nodup.filter _ (show [0, 1, 2, 3, 4, 5, 6].Nodup by decide)

/-- The knot marks of a set are of different lanes (R79). -/
theorem nodup_knotMarks_lane (s : State) (kind : MarkKind) (r : Nat) (captured : List Nat) (js : JunctionSet) :
    ((knotMarks s kind r captured js).map (·.lane)).Nodup := by
  rw [knotMarks, List.map_map]
  refine (nodup_junctionsOf js).map_on fun i hi j hj hij => ?_
  have hi' := junction_lt ((mem_junctionsOf js i).1 hi)
  have hj' := junction_lt ((mem_junctionsOf js j).1 hj)
  have hval : i % 8 = j % 8 := congrArg Fin.val hij
  omega

/-! ### Marks of an event, by lane -/

/-- The marks of an event are one for each lane that `knot` names, of its kind (R125, R128, R130). -/
structure KnotsOf (s : State) (r : Nat) (captured : List Nat) (knot : LaneNo → Option MarkKind) (ms : List Mark) :
    Prop where
  nodup : (ms.map (·.lane)).Nodup
  mem : ∀ m, m ∈ ms ↔ ∃ l kind, knot l = some kind ∧ m = knotMark s kind r captured l

theorem KnotsOf.lane_mem {r : Nat} {captured : List Nat} {knot : LaneNo → Option MarkKind} {ms : List Mark}
    (h : KnotsOf s r captured knot ms) (l : LaneNo) : (∃ m ∈ ms, m.lane = l) ↔ (knot l).isSome = true := by
  rw [Option.isSome_iff_exists]
  constructor
  · rintro ⟨m, hm, rfl⟩
    obtain ⟨l, kind, hk, rfl⟩ := (h.mem m).1 hm
    exact ⟨kind, hk⟩
  · rintro ⟨kind, hk⟩
    exact ⟨knotMark s kind r captured l, (h.mem _).2 ⟨l, kind, hk, rfl⟩, rfl⟩

/-- The missed knots of a set. -/
theorem knotsOf_missed (s : State) (kind : MarkKind) (r : Nat) (captured : List Nat) (js : JunctionSet) :
    KnotsOf s r captured (fun l => if js.getLsbD l.val then some kind else none) (knotMarks s kind r captured js) where
  nodup := nodup_knotMarks_lane s kind r captured js
  mem m := by
    rw [mem_knotMarks]
    refine exists_congr fun l => ⟨fun ⟨hl, hm⟩ => ⟨kind, if_pos hl, hm⟩, fun ⟨k, hk, hm⟩ => ?_⟩
    obtain ⟨hl, hkind⟩ := (Option.ite_none_right_eq_some).1 hk
    obtain rfl := Option.some.inj hkind
    exact ⟨hl, hm⟩

/-- Missed knots and extra knots of disjoint sets. -/
theorem knotsOf_append (s : State) (a b : MarkKind) (r : Nat) (captured : List Nat) (js ks : JunctionSet)
    (h : ∀ j, js.getLsbD j = true → ks.getLsbD j = false) :
    KnotsOf s r captured
      (fun l => if js.getLsbD l.val then some a else if ks.getLsbD l.val then some b else none)
      (knotMarks s a r captured js ++ knotMarks s b r captured ks) where
  nodup := by
    rw [List.map_append, List.nodup_append]
    refine ⟨nodup_knotMarks_lane s a r captured js, nodup_knotMarks_lane s b r captured ks, fun x hx y hy hxy => ?_⟩
    obtain ⟨m, hm, rfl⟩ := List.mem_map.1 hx
    obtain ⟨n, hn, rfl⟩ := List.mem_map.1 hy
    obtain ⟨i, hi, rfl⟩ := mem_knotMarks.1 hm
    obtain ⟨j, hj, rfl⟩ := mem_knotMarks.1 hn
    have hij : i = j := hxy
    subst hij
    exact Bool.false_ne_true ((h _ hi).symm.trans hj)
  mem m := by
    rw [List.mem_append, mem_knotMarks, mem_knotMarks]
    constructor
    · rintro (⟨l, hl, rfl⟩ | ⟨l, hl, rfl⟩)
      · exact ⟨l, a, if_pos hl, rfl⟩
      · have hjs : ¬ js.getLsbD l.val = true := fun hj => Bool.false_ne_true ((h _ hj).symm.trans hl)
        exact ⟨l, b, (if_neg hjs).trans (if_pos hl), rfl⟩
    · rintro ⟨l, kind, hk, rfl⟩
      by_cases hjs : js.getLsbD l.val = true
      · rw [if_pos hjs] at hk
        exact .inl ⟨l, hjs, by rw [Option.some.inj hk]⟩
      · rw [if_neg hjs] at hk
        obtain ⟨hks, hkind⟩ := (Option.ite_none_right_eq_some).1 hk
        obtain rfl := Option.some.inj hkind
        exact .inr ⟨l, hks, rfl⟩

/-- A mark without its number in the order of making. -/
def Mark.unmade (m : Mark) : Mark := { m with made := 0 }

/-- A list with a mark put in, but for its number (R81, R86). -/
theorem map_unmade_insertMark (m : Mark) (n : Nat) (ms : List Mark) :
    (insertMark { m with made := n } ms).map Mark.unmade = (placed m.unmade ms).map Mark.unmade := by
  rw [insertMark_eq_placed]
  simp only [placed, List.map_append, List.map_cons]
  rfl

theorem mem_insertMark_self (m : Mark) (ms : List Mark) : m ∈ insertMark m ms := by
  obtain ⟨front, back, -, h, -, -⟩ := insertMark_spec m ms
  rw [h]
  exact List.mem_append_right _ List.mem_cons_self

/-- A knot mark as the store keeps it (R82). -/
def keptKnot (s : State) (kind : MarkKind) (r : Nat) (captured : List Nat) (l : LaneNo) : Mark :=
  { knotMark s kind r captured l with position := max (s.lane l).coilStart (s.knotterOf (capturedAt captured l.val)) }

theorem keptMark_knotMark (s : State) (kind : MarkKind) (r : Nat) (captured : List Nat) (l : LaneNo) :
    keptMark s (knotMark s kind r captured l) = { keptKnot s kind r captured l with made := s.marks.nextMade } := rfl

section
variable {r : Nat} {captured : List Nat} {knot : LaneNo → Option MarkKind} {ms : List Mark}

/-- A knot mark of an event is lost, or stands in its place (R83). -/
theorem KnotsOf.handed (h : KnotsOf s r captured knot ms) {kind : MarkKind} (hk : knot l = some kind) :
    ((handMarks ms s).markList l = s.markList l ∧ ((handMarks ms s).lane l).marksLost = true) ∨
      (((handMarks ms s).markList l).map Mark.unmade =
          (placed (keptKnot s kind r captured l) (s.markList l)).map Mark.unmade ∧
        ((handMarks ms s).lane l).marksLost = (s.lane l).marksLost) := by
  have hm : knotMark s kind r captured l ∈ ms := (h.mem _).2 ⟨l, kind, hk, rfl⟩
  refine (handMarks_one hm h.nodup s).imp id fun ⟨⟨n, hlist⟩, hlane⟩ => ⟨?_, congrArg Lane.marksLost hlane⟩
  have hplace := map_unmade_insertMark (keptKnot s kind r captured l) n (s.markList l)
  refine Eq.trans (congrArg (List.map Mark.unmade) hlist) ?_
  rw [keptMark_knotMark]
  exact hplace

/-- With an entry for each, every knot mark of an event stands in its lane's list (R83). -/
theorem KnotsOf.stored (h : KnotsOf s r captured knot ms) (hroom : s.marksHeld + ms.length ≤ 96) {kind : MarkKind}
    (hk : knot l = some kind) : ∃ n, { keptKnot s kind r captured l with made := n } ∈ (handMarks ms s).markList l := by
  have hm : knotMark s kind r captured l ∈ ms := (h.mem _).2 ⟨l, kind, hk, rfl⟩
  have hnodup := h.nodup
  obtain ⟨pre, post, rfl⟩ := List.append_of_mem hm
  obtain ⟨hpre, hpost⟩ := lanes_ne_of_nodup hnodup
  have hlist := handAll_room_markList hroom hpre hpost
  refine ⟨s.marks.nextMade + pre.length, ?_⟩
  rw [handMarks_room hroom]
  exact (congrArg (_ ∈ ·) hlist).mpr (mem_insertMark_self _ _)

theorem KnotsOf.others (h : KnotsOf s r captured knot ms) (hk : knot l = none) :
    (handMarks ms s).lane l = s.lane l ∧ (handMarks ms s).markList l = s.markList l :=
  handMarks_lane_ne (fun m hm hl => by
    have hsome := (h.lane_mem l).1 ⟨m, hm, hl⟩
    rw [hk] at hsome
    exact Bool.false_ne_true hsome) s

theorem KnotsOf.lanesOfMarks (h : KnotsOf s r captured knot ms) (l : LaneNo) :
    laneIn (lanesOfMarks ms) l = (knot l).isSome := by
  rw [Bool.eq_iff_iff, Machine.lanesOfMarks, laneIn_laneSetOf, ← h.lane_mem l, List.mem_map]

end

/-! ### A row that closes -/

/-- The panel-end test touches no notice but CUT_DUE (R133, R143). -/
theorem panelEndTest_lanesFor {k : NoticeKind} (hk : k ≠ .cutDue) (s : State) (v : PortNo) :
    ((panelEndTest s).port v).notices.lanesFor k = ((s.port v).notices.lanesFor k) := by
  by_cases h : panelEndMet s = true
  · have hlate : cutIsLate (s.modPanel fun p => { p with state := .cutWait }) (.panel s.panelLanes) s.drawUm = false :=
      cutIsLate_draw s.panelLanes s
    rw [panelEndTest, if_pos h, cutFallsDue_eq, hlate, requestIfLate, if_neg Bool.false_ne_true, cutPlaced]
    split
    · rfl
    · unfold joinCut
      split
      · rfl
      · rw [State.raise_port, Port.notify, NoticeSet.lanesFor_add, if_neg hk]
        rfl
  · rw [panelEndTest_unmet h]

/-- The marks and the lanes of a row that closes are those of its marks handed. -/
theorem closeRow_marks (row : RowRecord) (ms : List Mark) (count : Panel → Panel) (s : State) :
    (closeRow row ms count s).marks = (handMarks ms s).marks ∧ (closeRow row ms count s).lanes = (handMarks ms s).lanes := by
  have hframe := panelEndTest_frame (rowLeft row ms count s)
  have hmarks : (rowLeft row ms count s).marks = (handMarks ms s).marks := rfl
  have hlanes : (rowLeft row ms count s).lanes = (handMarks ms s).lanes := rfl
  rw [closeRow_eq]
  exact ⟨(congrArg State.marks hframe :).trans hmarks, (congrArg State.lanes hframe :).trans hlanes⟩

/-- The panel's end follows the close of its last row (R132). -/
abbrev RowEnds (s : State) (rest : List RowRecord) : Prop :=
  s.panel.state = .finishing ∧ rest = [] ∧ s.panel.tailReached = true

/-- A count of rows leaves the panel's state, net and tail. -/
structure CountsRows (count : Panel → Panel) : Prop where
  state : ∀ q, (count q).state = q.state
  tail : ∀ q, (count q).tailReached = q.tailReached
  net : ∀ q, (count q).netWidth = q.netWidth

section
variable {x : RowRecord} {rest : List RowRecord} {ms : List Mark} {count : Panel → Panel}

theorem rowEnds_iff (hrows : s.rows = x :: rest) (hc : CountsRows count) :
    panelEndMet (rowLeft x ms count s) = true ↔ RowEnds s rest := by
  rw [panelEndMet_iff, rowLeft_rows, rowLeft_panel, hc.state, hc.tail, hrows]
  rfl

/-- The panel after its oldest row closes (R128, R130, R133). -/
theorem closeRow_panel (hrows : s.rows = x :: rest) (hc : CountsRows count) [Decidable (RowEnds s rest)] :
    (closeRow x ms count s).panel =
      { count { s.panel with lastClosedRow := newerRow s.panel.lastClosedRow x.row } with
        state := if RowEnds s rest then .cutWait else s.panel.state } := by
  rw [closeRow_eq, panelEndTest_panel, rowLeft_panel, hc.state]
  simp only [rowEnds_iff hrows hc]

theorem rowLeft_panelLanes (hc : CountsRows count) : (rowLeft x ms count s).panelLanes = s.panelLanes := by
  rw [State.panelLanes, State.panelWidth, rowLeft_panel, hc.net, State.panelLanes, State.panelWidth]

theorem closeRow_cuts_ends (hrows : s.rows = x :: rest) (hc : CountsRows count) (h : RowEnds s rest) :
    (closeRow x ms count s).cuts = s.cuts.withDue (.panel s.panelLanes) s.drawUm false := by
  have hcuts : (rowLeft x ms count s).cuts = s.cuts := (congrArg State.cuts (rowLeft_frame x ms count s) :)
  have hline : (rowLeft x ms count s).line = s.line := (congrArg State.line (rowLeft_frame x ms count s) :)
  rw [closeRow_eq, panelEndTest_met ((rowEnds_iff hrows hc).2 h), hcuts, rowLeft_panelLanes hc, State.drawUm, hline]
  rfl

theorem closeRow_cuts_stays (hrows : s.rows = x :: rest) (hc : CountsRows count) (h : ¬ RowEnds s rest) :
    (closeRow x ms count s).cuts = s.cuts := by
  rw [closeRow_eq, panelEndTest_unmet (mt (rowEnds_iff hrows hc).1 h)]
  exact (congrArg State.cuts (rowLeft_frame x ms count s) :)

theorem closeRow_cutDue (hrows : s.rows = x :: rest) (hc : CountsRows count) (h : RowEnds s rest)
    (hreq : ∃ e ∈ (closeRow x ms count s).cuts.list.drop s.cuts.list.length, e.state = .requested) :
    Raised .cutDue (closeRow x ms count s) := by
  have hcuts : (rowLeft x ms count s).cuts = s.cuts := (congrArg State.cuts (rowLeft_frame x ms count s) :)
  rw [closeRow_eq] at hreq ⊢
  exact panelEndTest_cutDue ((rowEnds_iff hrows hc).2 h) (by rw [hcuts]; exact hreq)

theorem closeRow_rows (hrows : s.rows = x :: rest) : (closeRow x ms count s).rows = rest := by
  have hkept : (panelEndTest (rowLeft x ms count s)).rows = (rowLeft x ms count s).rows :=
    (congrArg State.rows (panelEndTest_frame (rowLeft x ms count s)) :)
  rw [closeRow_eq, hkept, rowLeft_rows, hrows]
  rfl

/-- What a row that closes touches: lanes, marks, the row list, the panel, the cuts and the notices. -/
theorem closeRow_frame (x : RowRecord) (ms : List Mark) (count : Panel → Panel) (s : State) :
    { closeRow x ms count s with
      lanes := s.lanes, marks := s.marks, freeTick := s.freeTick, rows := s.rows, panel := s.panel,
      cuts := s.cuts, ports := s.ports } = s := by
  have hleft := rowLeft_frame x ms count s
  have hend := panelEndTest_frame (rowLeft x ms count s)
  calc { closeRow x ms count s with
          lanes := s.lanes, marks := s.marks, freeTick := s.freeTick, rows := s.rows, panel := s.panel,
          cuts := s.cuts, ports := s.ports }
    _ = { ({ panelEndTest (rowLeft x ms count s) with
            panel := (rowLeft x ms count s).panel, cuts := (rowLeft x ms count s).cuts,
            ports := (rowLeft x ms count s).ports } : State) with
          lanes := s.lanes, marks := s.marks, freeTick := s.freeTick, rows := s.rows, panel := s.panel,
          cuts := s.cuts, ports := s.ports } := rfl
    _ = { ({ rowLeft x ms count s with
            lanes := s.lanes, marks := s.marks, freeTick := s.freeTick, rows := s.rows, panel := s.panel,
            ports := s.ports } : State) with cuts := s.cuts } := by rw [hend]
    _ = s := by rw [hleft]

/-- The lanes that the close of a row is shown with (R128, R130). -/
theorem closeRow_rowClosed {r : Nat} {captured : List Nat} {knot : LaneNo → Option MarkKind}
    (h : KnotsOf s r captured knot ms) (v : PortNo) :
    ((closeRow x ms count s).port v).notices.has .rowClosed = true ∧ ∀ l : LaneNo,
      laneIn (((closeRow x ms count s).port v).notices.lanesFor .rowClosed) l =
        (laneIn ((s.port v).notices.lanesFor .rowClosed) l || (knot l).isSome) := by
  have hports : ∀ q, (handMarks ms s).port q = s.port q := fun q => by
    rw [State.port, (MarksOnly.handMarks ms s).ports, State.port]
  have hraised : Raised .rowClosed (rowLeft x ms count s) := raised_raise _ _ _
  have hlanes : ((rowLeft x ms count s).port v).notices.lanesFor .rowClosed =
      (s.port v).notices.lanesFor .rowClosed ||| lanesOfMarks ms := by
    rw [rowLeft, State.raise_port, Port.notify, NoticeSet.lanesFor_add, if_pos rfl]
    exact congrArg (fun P : Port => P.notices.lanesFor .rowClosed ||| lanesOfMarks ms) (hports v)
  refine ⟨hraised.heard (heard_panelEndTest _) v, fun l => ?_⟩
  rw [closeRow_eq, panelEndTest_lanesFor (by decide), hlanes, laneIn_or, h.lanesOfMarks]

end

end Sys2Proof.Machine
end


section
/-! PROOFS. KNOT_DONE, the row timeout and the tail (07_knotting_schedule.md R126 to R133). -/

namespace Sys2Proof.Machine

variable {s t u : State} {l : LaneNo} {p : PortNo}

section
variable {x : RowRecord} {rest : List RowRecord} {ms : List Mark} {count : Panel → Panel}
  {knot : LaneNo → Option MarkKind}

/-- The marks of a row that closes: stored where the pool has an entry for each; else as many as fit are stored and
each of the others is lost with its lane's marks_lost (R83, R128, R130). -/
theorem closeRow_knots (h : KnotsOf s x.row x.captured knot ms) (count : Panel → Panel) :
    (s.marksHeld + ms.length ≤ 96 → (closeRow x ms count s).marksHeld = s.marksHeld + ms.length ∧
      ∀ l kind, knot l = some kind → ∃ m ∈ (closeRow x ms count s).markList l,
        m.kind = kind ∧ m.row = some x.row ∧ m.junction = some l.val ∧ m.extent = none ∧
        m.position = max (s.lane l).coilStart (x.captured.getD l.val 0 - s.line.dKnot * 1000)) ∧
    (∀ l, (closeRow x ms count s).lane l =
      { s.lane l with marksLost := ((closeRow x ms count s).lane l).marksLost }) ∧
    (s.marksHeld + ms.length ≤ 96 → ∀ l, ((closeRow x ms count s).lane l).marksLost = (s.lane l).marksLost) ∧
    (s.marksHeld ≤ 96 → (closeRow x ms count s).marksHeld = min 96 (s.marksHeld + ms.length)) ∧
    (96 ≤ s.marksHeld → (closeRow x ms count s).marks = s.marks) ∧
    ∀ l, (knot l = none → (closeRow x ms count s).markList l = s.markList l ∧
        ((closeRow x ms count s).lane l).marksLost = (s.lane l).marksLost) ∧
      ∀ kind, knot l = some kind →
        ((closeRow x ms count s).markList l = s.markList l ∧ ((closeRow x ms count s).lane l).marksLost = true) ∨
        (((closeRow x ms count s).markList l).map Mark.unmade =
            (placed (keptKnot s kind x.row x.captured l) (s.markList l)).map Mark.unmade ∧
          ((closeRow x ms count s).lane l).marksLost = (s.lane l).marksLost) := by
  obtain ⟨hmarks, hlanes⟩ := closeRow_marks x ms count s
  have hheld : (closeRow x ms count s).marksHeld = (handMarks ms s).marksHeld :=
    marksHeld_congr (congrArg MarkStore.lists hmarks)
  have hlist : ∀ l, (closeRow x ms count s).markList l = (handMarks ms s).markList l := fun l =>
    congrArg (fun m : MarkStore => m.lists[l]) hmarks
  have hlane : ∀ l, (closeRow x ms count s).lane l = (handMarks ms s).lane l := lane_of_lanes hlanes
  simp only [hheld, hlist, hlane, hmarks]
  have honly := MarksOnly.handMarks ms s
  refine ⟨fun hroom => ⟨?_, fun l kind hk => ?_⟩, honly.lane, fun hroom l => ?_, handMarks_marksHeld ms,
    fun hfull => (handMarks_full ms hfull).1, fun l => ⟨fun hk => ?_, fun kind hk => h.handed hk⟩⟩
  · rw [handMarks_room hroom, (handAll_room hroom).2.1]
  · obtain ⟨n, hn⟩ := h.stored hroom hk
    exact ⟨_, hn, rfl, rfl, rfl, rfl, rfl⟩
  · exact (congrArg (fun v : State => (v.lane l).marksLost) (handMarks_room_frame hroom) :)
  · obtain ⟨h1, h2⟩ := h.others hk
    exact ⟨h2, by rw [h1]⟩

end

/-! ### The timeout of the oldest row -/

theorem countsRows_timedOut : CountsRows fun p => { p with rowsTimedOut := p.rowsTimedOut + 1 } :=
  ⟨fun _ => rfl, fun _ => rfl, fun _ => rfl⟩

theorem countsRows_knotted : CountsRows fun p => { p with rowsKnotted := p.rowsKnotted + 1 } :=
  ⟨fun _ => rfl, fun _ => rfl, fun _ => rfl⟩

theorem newerRow_eq (last : Option Nat) (r : Nat) :
    newerRow last r = some (match last with | some c => max c r | none => r) := by
  cases last <;> rfl

theorem rowTimeoutIfMet_met {x : RowRecord} {rest : List RowRecord} (hrows : s.rows = x :: rest)
    (h : x.timeoutDraw ≤ s.drawUm) : rowTimeoutIfMet s = rowTimesOut x s := by
  unfold rowTimeoutIfMet
  rw [hrows]
  exact if_pos h

theorem rowTimeoutIfMet_unmet (h : ∀ x, s.rows.head? = some x → s.drawUm < x.timeoutDraw) : rowTimeoutIfMet s = s := by
  unfold rowTimeoutIfMet
  split
  · rfl
  · next x rest hrows => exact if_neg (not_le.2 (h x (by rw [hrows]; rfl)))

/-! ### The tail -/

theorem tailMet_iff (s : State) : tailMet s = true ↔
    (s.panel.state = .laying ∨ s.panel.state = .finishing) ∧ s.panel.tailReached = false ∧ tailEnd s ≤ s.drawUm := by
  simp [tailMet, and_assoc]

/-- Settles O47: the oldest row by its timeout, and the tail by the draw and by whether rows stand (R130, R132). -/
theorem rowTimesOutAndTailPasses : Obligations.RowTimesOutAndTailPasses := by
  intro s q rc draw tail panel unmade
  refine ⟨fun h => congrArg Host.Outcome.next (rowTimeoutIfMet_unmet h), fun x rest hrows hdue => ?closes, fun h => ?noTail,
    fun hnot hreached hstate => ⟨fun hrows => ?tailOnly, fun hfin hrows => ?ends⟩⟩
  case noTail =>
    refine congrArg Host.Outcome.next (if_neg ?_)
    rw [tailMet_iff]
    rintro ⟨hs, ht, hle⟩
    obtain h | h | h | h := h
    · exact Bool.false_ne_true (ht.symm.trans h)
    · exact absurd hle (not_le.2 h)
    · exact hs.elim (fun hl => absurd (hl.symm.trans h) (by decide)) fun hl => absurd (hl.symm.trans h) (by decide)
    · exact hs.elim (fun hl => absurd (hl.symm.trans h) (by decide)) fun hl => absurd (hl.symm.trans h) (by decide)
  case tailOnly =>
    have hexec : exec .tailReached s = .next (panelEndTest (s.modPanel fun p => { p with tailReached := true })) :=
      congrArg Host.Outcome.next (if_pos ((tailMet_iff s).2 ⟨hstate, hnot, hreached⟩))
    rw [hexec, panelEndTest_unmet]
    · rfl
    · rw [panelEndMet_iff]
      rintro ⟨hf, hr, -⟩
      exact hrows.elim (fun hl => absurd (hl.symm.trans hf) (by decide)) fun hn => hn hr
  case ends =>
    have hexec : exec .tailReached s = .next (panelEndTest (s.modPanel fun p => { p with tailReached := true })) :=
      congrArg Host.Outcome.next (if_pos ((tailMet_iff s).2 ⟨hstate, hnot, hreached⟩))
    have hmet : panelEndMet (s.modPanel fun p => { p with tailReached := true }) = true :=
      (panelEndMet_iff _).2 ⟨hfin, hrows, rfl⟩
    refine ⟨_, hexec, ?_⟩
    rw [panelEndTest_met hmet]
    exact ⟨rfl, rfl, rfl, rfl, rfl, rfl, rfl⟩
  case closes =>
    intro handed ends
    have hexec : exec .rowTimeout s = .next (rowTimesOut x s) := congrArg Host.Outcome.next (rowTimeoutIfMet_met hrows hdue)
    have hknots := knotsOf_missed s .missedKnot x.row x.captured x.expected
    have hlen := knotMarks_length s .missedKnot x.row x.captured x.expected
    have hpanel := closeRow_panel (ms := knotMarks s .missedKnot x.row x.captured x.expected) hrows countsRows_timedOut
    have hframe := closeRow_frame x (knotMarks s .missedKnot x.row x.captured x.expected)
      (fun p => { p with rowsTimedOut := p.rowsTimedOut + 1 }) s
    have hnotices := closeRow_rowClosed (x := x) (count := fun p => { p with rowsTimedOut := p.rowsTimedOut + 1 }) hknots
    have hfacts := closeRow_knots hknots fun p => { p with rowsTimedOut := p.rowsTimedOut + 1 }
    have hends := closeRow_cuts_ends (ms := knotMarks s .missedKnot x.row x.captured x.expected) hrows countsRows_timedOut
    have hstays := closeRow_cuts_stays (ms := knotMarks s .missedKnot x.row x.captured x.expected) hrows countsRows_timedOut
    have hrest : (rowTimesOut x s).rows = rest := closeRow_rows hrows
    rw [hlen] at hfacts
    rw [hexec, rowTimesOut]
    rw [rowTimesOut] at hrest
    generalize closeRow x (knotMarks s .missedKnot x.row x.captured x.expected)
      (fun p => { p with rowsTimedOut := p.rowsTimedOut + 1 }) s = t at hpanel hframe hnotices hfacts hends hstays hrest
    obtain ⟨hroom, hlanes, hlost, hmin, hfull, hlane⟩ := hfacts
    refine ⟨t, rfl, hrest, by rw [hpanel], by rw [hpanel], ?_, by rw [hpanel], hstays, hends, fun hr => ?_, hlanes, hlost,
      hmin, hfull, fun l => ⟨fun hb => ?_, fun hb => ?_⟩, fun v => ⟨(hnotices v).1, fun l => ?_⟩,
      (congrArg State.line hframe :), (congrArg State.recipes hframe :), (congrArg State.positions hframe :),
      (congrArg State.cals hframe :), (congrArg State.stops hframe :), (congrArg State.forcing hframe :),
      (congrArg State.inputs hframe :)⟩
    · rw [hpanel]; exact newerRow_eq _ _
    · obtain ⟨hheld, hstored⟩ := hroom hr
      exact ⟨hheld, fun j hj => hstored (j.castLE (by decide)) .missedKnot (if_pos hj)⟩
    · exact (hlane l).1 (if_neg (by rw [hb]; exact Bool.false_ne_true))
    · exact (hlane l).2 .missedKnot (if_pos hb)
    · rw [(hnotices v).2]
      cases x.expected.getLsbD l.val <;> rfl

/-! ### KNOT_DONE -/

theorem knotDone_row (row : BitVec 16) (tied : Byte) : beAt (beBytes 2 row.toNat ++ [tied]) 0 2 = row.toNat := by
  rw [beAt_beBytes]
  exact Nat.mod_eq_of_lt row.isLt

theorem knotDone_tied (row : BitVec 16) (tied : Byte) : byteAt (beBytes 2 row.toNat ++ [tied]) 2 = tied := rfl

theorem alreadyClosed_iff (last : Option Nat) (r : Nat) :
    alreadyClosed last r = true ↔ ∃ c, last = some c ∧ r ≤ c := by
  cases last <;> simp [alreadyClosed]

/-- KNOT_DONE is refused in ROPE mode and with no panel open (R126). -/
theorem serveKnotDone_shut (h : s.line.mode = .rope ∨ s.panel.state = .none) (bs : List Byte) :
    serveKnotDone bs s = refuse .state s := by
  have hshut : s.line.mode = .rope ∨ s.panelOpen = false :=
    h.imp id fun hn => Bool.eq_false_iff.2 fun ho => (panelOpen_eq_true_iff s).1 ho hn
  exact if_pos hshut

theorem not_shut (h : ¬ (s.line.mode = .rope ∨ s.panel.state = .none)) :
    ¬ (s.line.mode = .rope ∨ s.panelOpen = false) := by
  rintro (hr | ho)
  · exact h (.inl hr)
  · have hopen := (panelOpen_eq_true_iff s).2 fun hn => h (.inr hn)
    exact Bool.false_ne_true (ho.symm.trans hopen)

/-- The oldest row is accepted (R126, R128). -/
theorem serveKnotDone_oldest {row : BitVec 16} {tied : Byte} {x : RowRecord} {rest : List RowRecord}
    (h : ¬ (s.line.mode = .rope ∨ s.panel.state = .none)) (hrows : s.rows = x :: rest) (hx : x.row = row.toNat) :
    serveKnotDone (beBytes 2 row.toNat ++ [tied]) s =
      { result := .ok, clamped := tiedDrops s tied, state := rowKnotted x (tiedSet s tied) s } := by
  unfold serveKnotDone
  simp only [knotDone_row, knotDone_tied, if_neg (not_shut h), hrows, if_pos hx]

/-- A row that is not the oldest is refused: ORDER, LATE or RANGE (R126). -/
theorem serveKnotDone_refused {row : BitVec 16} {tied : Byte}
    (h : ¬ (s.line.mode = .rope ∨ s.panel.state = .none)) (hhead : ∀ x, s.rows.head? = some x → x.row ≠ row.toNat) :
    serveKnotDone (beBytes 2 row.toNat ++ [tied]) s =
      if (s.rows.any fun x => x.row == row.toNat) = true then refuse .order s
      else if alreadyClosed s.panel.lastClosedRow row.toNat then refuse .late s else refuse .range s := by
  unfold serveKnotDone
  simp only [knotDone_row, knotDone_tied, if_neg (not_shut h)]
  cases hrows : s.rows with
  | nil => rw [List.any_nil, if_neg Bool.false_ne_true]
  | cons x rest =>
    have hx : x.row ≠ row.toNat := hhead x (by rw [hrows]; rfl)
    simp only [if_neg hx, List.any_cons, beq_eq_false_iff_ne.2 hx, Bool.false_or]

theorem getLsbD_and_not (a b : JunctionSet) (j : Nat) : (a &&& ~~~b).getLsbD j = (a.getLsbD j && !b.getLsbD j) := by
  rw [BitVec.getLsbD_and, BitVec.getLsbD_not]
  by_cases hj : j < 7
  · rw [decide_eq_true hj, Bool.true_and]
  · rw [BitVec.getLsbD_of_ge a j (not_lt.1 hj), Bool.false_and, Bool.false_and]

theorem length_filter_or {α : Type} (f g : α → Bool) (h : ∀ x, f x = true → g x = false) (xs : List α) :
    (xs.filter f).length + (xs.filter g).length = (xs.filter fun x => f x || g x).length := by
  induction xs with
  | nil => rfl
  | cons x xs ih =>
    have hx := h x
    cases hf : f x <;> cases hg : g x <;> simp_all <;> omega

/-- Settles O46: the refusals by their order, and the oldest row by its missed and extra knots (R126 to R128). -/
theorem knotDoneClosesTheOldestRow : Obligations.KnotDoneClosesTheOldestRow := by
  intro s p row tied hr q w shut late
  rw [exec_knotDone_ready row tied hr]
  refine ⟨fun h => ?shut, fun h hhead => ⟨fun ho => ?order, fun hno => ⟨fun hl => ?late, fun hl => ?range⟩⟩,
    fun x rest hrows h hx => ?closes⟩
  case shut => rw [serveKnotDone_shut h]; rfl
  case order =>
    have hany : (s.rows.any fun x => x.row == row.toNat) = true := by simpa using ho
    rw [serveKnotDone_refused h hhead, if_pos hany]; rfl
  case late =>
    have hany : ¬ (s.rows.any fun x => x.row == row.toNat) = true := by simpa using hno
    rw [serveKnotDone_refused h hhead, if_neg hany, if_pos ((alreadyClosed_iff _ _).2 hl)]; rfl
  case range =>
    have hany : ¬ (s.rows.any fun x => x.row == row.toNat) = true := by simpa using hno
    rw [serveKnotDone_refused h hhead, if_neg hany, if_neg (mt (alreadyClosed_iff _ _).1 hl)]; rfl
  case closes =>
    intro knots missed extra unmade handed
    have hset : tiedSet s tied = knots := rfl
    have hmissed : ∀ j, (x.expected &&& ~~~knots).getLsbD j = missed j := fun j => getLsbD_and_not _ _ j
    have hextra : ∀ j, (knots &&& ~~~x.expected).getLsbD j = extra j := fun j =>
      (getLsbD_and_not _ _ j).trans (Bool.and_comm _ _)
    have hdisjoint : ∀ j, missed j = true → extra j = false := fun j hj => by
      have := (Bool.and_eq_true_iff.1 hj).1
      simp only [extra, this, Bool.not_true, Bool.false_and]
    have hknots := knotsOf_append s .missedKnot .extraKnot x.row x.captured (x.expected &&& ~~~knots)
      (knots &&& ~~~x.expected) fun j hj => by rw [hextra]; exact hdisjoint j (by rw [← hmissed]; exact hj)
    simp only [hmissed, hextra] at hknots
    have hlen : (knotMarks s .missedKnot x.row x.captured (x.expected &&& ~~~knots) ++
        knotMarks s .extraKnot x.row x.captured (knots &&& ~~~x.expected)).length = handed := by
      rw [List.length_append, knotMarks_length, knotMarks_length]
      simp only [hmissed, hextra]
      exact length_filter_or missed extra hdisjoint _
    rw [serveKnotDone_oldest h hrows hx, rowKnotted, hset]
    generalize knotMarks s .missedKnot x.row x.captured (x.expected &&& ~~~knots) ++
      knotMarks s .extraKnot x.row x.captured (knots &&& ~~~x.expected) = ms at hknots hlen
    have hpanel := closeRow_panel (ms := ms) hrows countsRows_knotted
    have hframe := closeRow_frame x ms (fun p => { p with rowsKnotted := p.rowsKnotted + 1 }) s
    have hnotices := closeRow_rowClosed (x := x) (count := fun p => { p with rowsKnotted := p.rowsKnotted + 1 }) hknots
    have hfacts := closeRow_knots hknots fun p => { p with rowsKnotted := p.rowsKnotted + 1 }
    have hends := closeRow_cuts_ends (ms := ms) hrows countsRows_knotted
    have hstays := closeRow_cuts_stays (ms := ms) hrows countsRows_knotted
    have hcutDue := closeRow_cutDue (ms := ms) hrows countsRows_knotted
    have hrest := closeRow_rows (ms := ms) (count := fun p => { p with rowsKnotted := p.rowsKnotted + 1 }) hrows
    rw [hlen] at hfacts
    generalize closeRow x ms (fun p => { p with rowsKnotted := p.rowsKnotted + 1 }) s = t
      at hpanel hframe hnotices hfacts hends hstays hrest hcutDue
    obtain ⟨hroom, hlanes, hlost, hmin, hfull, hlane⟩ := hfacts
    have hkind : ∀ l : LaneNo, (missed l.val || extra l.val) = true →
        (if missed l.val = true then some MarkKind.missedKnot else if extra l.val = true then some .extraKnot else none) =
          some (if missed l.val = true then .missedKnot else .extraKnot) := fun l hl => by
      cases hm : missed l.val with
      | true => rfl
      | false => rw [hm, Bool.false_or] at hl; rw [if_neg Bool.false_ne_true, if_pos hl, if_neg Bool.false_ne_true]
    refine ⟨t, rfl, hrest, by rw [hpanel], by rw [hpanel], ?_, by rw [hpanel], hstays,
      fun he => ⟨hends he, hcutDue he⟩, fun hr => ?_, hlanes, hlost, hmin, hfull, fun l => ?_,
      fun v => ⟨(hnotices v).1, fun l => ?_⟩, (congrArg State.positions hframe :), (congrArg State.recipes hframe :),
      (congrArg State.line hframe :), (congrArg State.cals hframe :), (congrArg State.stops hframe :),
      (congrArg State.forcing hframe :), (congrArg State.inputs hframe :)⟩
    · rw [hpanel]; exact newerRow_eq _ _
    · obtain ⟨hheld, hstored⟩ := hroom hr
      exact ⟨hheld, fun j hj => hstored (j.castLE (by decide)) _ (hkind _ (by simpa using hj))⟩
    · intro hands
      refine ⟨fun hb => (hlane l).1 ?_, fun hb => (hlane l).2 _ (hkind l hb)⟩
      obtain ⟨hm, he⟩ := Bool.or_eq_false_iff.1 hb
      rw [hm, he]
      rfl
    · rw [(hnotices v).2, Bool.or_assoc]
      cases missed l.val <;> cases extra l.val <;> rfl

end Sys2Proof.Machine
end


section
/-! PROOFS. A row that falls due on the draw: its feed check, its captures, its marks and its place in the row list
(07_knotting_schedule.md R118 to R125). -/

namespace Sys2Proof.Machine

variable {s t u : State} {l : LaneNo} {p : PortNo}

/-! ### One mark for each lane of a choice -/

/-- The marks of an event that hands one for each lane chosen, in the order of the lanes. -/
def marksFor (f : LaneNo → Bool) (mk : LaneNo → Mark) : List Mark := (allLanes.filter f).map mk

/-- The number of lanes chosen before a lane. -/
def chosenBefore (f : LaneNo → Bool) (l : LaneNo) : Nat := (allLanes.filter fun m => decide (m < l) && f m).length

theorem allLanes_split (l : LaneNo) :
    allLanes = (allLanes.filter fun m => decide (m < l)) ++ l :: allLanes.filter fun m => decide (l < m) := by
  revert l
  decide

theorem lanesBefore_length (l : LaneNo) : (allLanes.filter fun m => decide (m < l)).length = l.val := by
  revert l
  decide

/-- The lanes of a choice, around one of them. -/
theorem filter_allLanes_split {f : LaneNo → Bool} (h : f l = true) :
    allLanes.filter f = (allLanes.filter fun m => decide (m < l) && f m) ++
      l :: allLanes.filter fun m => decide (l < m) && f m := by
  have hsplit := congrArg (List.filter f) (allLanes_split l)
  rw [List.filter_append, List.filter_cons, if_pos h, List.filter_filter, List.filter_filter] at hsplit
  simpa only [Bool.and_comm] using hsplit

theorem marksFor_length (f : LaneNo → Bool) (mk : LaneNo → Mark) :
    (marksFor f mk).length = (allLanes.filter f).length := List.length_map _

theorem marksFor_congr {f : LaneNo → Bool} {mk mk' : LaneNo → Mark} (h : ∀ l, f l = true → mk l = mk' l) :
    marksFor f mk = marksFor f mk' :=
  List.map_congr_left fun l hl => h l (List.mem_filter.1 hl).2

section
variable {f : LaneNo → Bool} {mk : LaneNo → Mark}

theorem mem_marksFor_lane (hmk : ∀ l, (mk l).lane = l) (l : LaneNo) :
    (∃ m ∈ marksFor f mk, m.lane = l) ↔ f l = true := by
  constructor
  · rintro ⟨m, hm, rfl⟩
    obtain ⟨k, hk, rfl⟩ := List.mem_map.1 hm
    rw [hmk]
    exact (List.mem_filter.1 hk).2
  · exact fun hf => ⟨mk l, List.mem_map_of_mem (List.mem_filter.2 ⟨mem_allLanes l, hf⟩), hmk l⟩

theorem lanesOfMarks_marksFor (hmk : ∀ l, (mk l).lane = l) (l : LaneNo) :
    laneIn (lanesOfMarks (marksFor f mk)) l = f l := by
  rw [Bool.eq_iff_iff, lanesOfMarks, laneIn_laneSetOf, ← mem_marksFor_lane hmk, List.mem_map]

theorem handMarks_marksFor_others (hmk : ∀ l, (mk l).lane = l) (h : f l = false) (s : State) :
    (handMarks (marksFor f mk) s).lane l = s.lane l ∧ (handMarks (marksFor f mk) s).markList l = s.markList l :=
  handMarks_lane_ne (fun m hm hl => Bool.false_ne_true (h.symm.trans ((mem_marksFor_lane hmk l).1 ⟨m, hm, hl⟩))) s

/-- With an entry for each, the mark of a lane stands in its place with its number (R81, R86). -/
theorem handMarks_marksFor_markList (hmk : ∀ l, (mk l).lane = l)
    (hroom : s.marksHeld + (marksFor f mk).length ≤ 96) (l : LaneNo) :
    (handMarks (marksFor f mk) s).markList l =
      if f l then placed { keptMark s (mk l) with made := s.marks.nextMade + chosenBefore f l } (s.markList l)
      else s.markList l := by
  split
  · next hf =>
    have hsplit : marksFor f mk = ((allLanes.filter fun m => decide (m < l) && f m).map mk) ++
        mk l :: (allLanes.filter fun m => decide (l < m) && f m).map mk := by
      rw [marksFor, filter_allLanes_split hf, List.map_append, List.map_cons]
    have hpre : ∀ n ∈ (allLanes.filter fun m => decide (m < l) && f m).map mk, n.lane ≠ (mk l).lane := fun n hn => by
      obtain ⟨k, hk, rfl⟩ := List.mem_map.1 hn
      rw [hmk, hmk]
      exact ne_of_lt (of_decide_eq_true (Bool.and_eq_true_iff.1 (List.mem_filter.1 hk).2).1)
    have hpost : ∀ n ∈ (allLanes.filter fun m => decide (l < m) && f m).map mk, n.lane ≠ (mk l).lane := fun n hn => by
      obtain ⟨k, hk, rfl⟩ := List.mem_map.1 hn
      rw [hmk, hmk]
      exact ne_of_gt (of_decide_eq_true (Bool.and_eq_true_iff.1 (List.mem_filter.1 hk).2).1)
    rw [hsplit] at hroom
    have hlist := handAll_room_markList hroom hpre hpost
    rw [hsplit, handMarks_room hroom]
    rw [hmk, List.length_map] at hlist
    rw [hlist, insertMark_eq_placed]
    rfl
  · next hf => exact (handMarks_marksFor_others hmk (Bool.not_eq_true _ ▸ hf) s).2

end

/-! ### The lanes that fail and the junctions missed -/

/-- A lane fails the feed check of a row: never at row 0 (R120, R121). -/
def rowFails (s : State) (r : Nat) (l : LaneNo) : Bool :=
  decide (l.val < s.panelWidth ∧ r ≠ 0 ∧ feedFails s r l = true)

theorem failingLanes_eq (s : State) (r : Nat) : failingLanes s r = allLanes.filter (rowFails s r) := by
  unfold failingLanes
  split
  · next h =>
    have hnone : ∀ l, rowFails s r l = false := fun l => decide_eq_false fun hf => hf.2.1 h
    simp [hnone]
  · next h =>
    rw [State.panelLanes, lanesOf_lanesBelow, List.filter_filter]
    refine List.filter_congr fun l _ => ?_
    rw [Bool.eq_iff_iff]
    simp [rowFails, h, and_comm]

theorem mem_failingLanes (s : State) (r : Nat) (l : LaneNo) : l ∈ failingLanes s r ↔ rowFails s r l = true := by
  rw [failingLanes_eq, List.mem_filter]
  exact and_iff_right (mem_allLanes l)

theorem laneIn_failingLanes (s : State) (r : Nat) (l : LaneNo) : laneIn (laneSetOf (failingLanes s r)) l = rowFails s r l := by
  rw [Bool.eq_iff_iff, laneIn_laneSetOf, mem_failingLanes]

theorem mem_feedStops (s : State) (r : Nat) (l : LaneNo) :
    l ∈ feedStops s r ↔ rowFails s r l = true ∧ 3 ≤ (s.lane l).pitchRun + 1 := by
  rw [feedStops, List.mem_filter, mem_failingLanes, decide_eq_true_iff]

/-- The junctions of a set, as lanes: junction j by its lower lane (R79). -/
theorem knotMarks_eq (s : State) (kind : MarkKind) (r : Nat) (captured : List Nat) (js : JunctionSet) :
    knotMarks s kind r captured js = marksFor (fun l => js.getLsbD l.val) (knotMark s kind r captured) := by
  have hvals : (allLanes.filter fun l => js.getLsbD l.val).map (fun l => l.val) = [0, 1, 2, 3, 4, 5, 6, 7].filter js.getLsbD :=
    (List.filter_map (f := fun l : LaneNo => l.val) (p := js.getLsbD) (l := allLanes)).symm
  have hlast : [0, 1, 2, 3, 4, 5, 6, 7].filter js.getLsbD = junctionsOf js := by
    show ([0, 1, 2, 3, 4, 5, 6] ++ [7]).filter js.getLsbD = _
    rw [List.filter_append, List.filter_singleton, BitVec.getLsbD_of_ge js 7 (le_refl 7)]
    exact List.append_nil _
  rw [knotMarks, ← hlast, ← hvals, List.map_map, marksFor]
  refine List.map_congr_left fun l _ => ?_
  show ({ kind := kind, lane := laneOfJunction l.val, position := _, extent := none, sense := none, row := some r, junction := some l.val, made := 0 } : Mark) = _
  rw [laneOfJunction_val]
  rfl

/-- The junctions that touch a lane, counted (R121). -/
theorem touching_eq (js : JunctionSet) (l : LaneNo) :
    ([0, 1, 2, 3, 4, 5, 6].filter fun j => js.getLsbD j && (j == l.val || j + 1 == l.val)).length = touching js l := by
  fin_cases l <;> simp [touching, junctionIn, List.filter_cons] <;> split_ifs <;> rfl

/-- The capture of a lane of the panel (R120). -/
theorem capturedAt_eq (w : Nat) (h : l.val < w) (f : LaneNo → Nat) :
    capturedAt ((allLanes.filter fun m => decide (m.val < w)).map f) l.val = f l := by
  have hbefore : (allLanes.filter fun m => decide (m < l) && decide (m.val < w)).length = l.val := by
    have hall : (allLanes.filter fun m => decide (m < l) && decide (m.val < w)) = allLanes.filter fun m => decide (m < l) :=
      List.filter_congr fun m _ => by
        rw [Bool.eq_iff_iff, Bool.and_eq_true_iff, decide_eq_true_iff, decide_eq_true_iff]
        exact ⟨And.left, fun hm => ⟨hm, Nat.lt_trans hm h⟩⟩
    rw [hall, lanesBefore_length]
  rw [filter_allLanes_split (f := fun m => decide (m.val < w)) (l := l) (decide_eq_true h), List.map_append, List.map_cons,
    capturedAt, List.getD_append_right _ _ _ _ (by rw [List.length_map, hbefore]), List.length_map, hbefore, Nat.sub_self]
  rfl

/-! ### What the captured state holds -/

/-- A junction that the row's skip misses: none while the list has room (R123, R125). -/
def rowMisses (s : State) (r : Nat) (l : LaneNo) : Bool :=
  decide (4 ≤ s.rows.length) && (expectedSet s r).getLsbD l.val

theorem feedMarked_eq (r : Nat) (s : State) : feedMarked r s = handMarks (marksFor (rowFails s r) (pitchMark s r)) s := by
  rw [feedMarked, failingLanes_eq, marksFor]

theorem feedMarked_zero (s : State) : feedMarked 0 s = s := handMarks_nil s

/-- The marks and the lanes after the feed check: its marks handed, and its pitch_run (R121, R122). -/
theorem feedCheck_marks (r : Nat) (s : State) : (feedCheck r s).marks = (feedMarked r s).marks := by
  by_cases hr : r = 0
  · subst hr; rw [feedMarked_zero]; rfl
  have hcounted : (feedCounted r s).marks = (feedMarked r s).marks := (congrArg State.marks (feedCounted_frame r s) :)
  rw [feedCheck_eq hr]
  split
  · exact hcounted
  · exact hcounted

theorem feedCounted_lane (r : Nat) (s : State) (m : LaneNo) : (feedCounted r s).lane m =
    if m.val < s.panelWidth then
      { (feedMarked r s).lane m with pitchRun := nextPitchRun (rowFails s r m) (s.lane m).pitchRun }
    else (feedMarked r s).lane m := by
  have h := forLanes_modEach_lane (fun l x => { x with pitchRun := nextPitchRun ((failingLanes s r).contains l) x.pitchRun })
    m (nodup_lanesOf s.panelLanes) (feedMarked r s)
  have hcontains : (failingLanes s r).contains m = rowFails s r m := by
    rw [Bool.eq_iff_iff, List.contains_iff_mem, mem_failingLanes]
  have hrun : ((feedMarked r s).lane m).pitchRun = (s.lane m).pitchRun := by
    have honly := (MarksOnly.handMarks ((failingLanes s r).map (pitchMark s r)) s).lane m
    rw [feedMarked, honly]
  simp only [State.panelLanes, mem_lanesOf_lanesBelow, hcontains, hrun] at h
  exact h

theorem feedCheck_lane {r : Nat} (hr : r ≠ 0) (s : State) (m : LaneNo) :
    (feedCheck r s).lane m = (feedCounted r s).lane m := by
  rw [feedCheck_eq hr]
  split <;> rfl

theorem rowCaptured_marks (s : State) : (rowCaptured s).marks = (feedMarked s.panel.nextRow s).marks := by
  have h : (rowCaptured s).marks = (feedCheck s.panel.nextRow s).marks :=
    (congrArg State.marks (captureLanes_frame (feedCheck s.panel.nextRow s)) :)
  rw [h, feedCheck_marks]

/-- The pitch_run of a lane of the panel after a row's feed check (R120, R122). -/
def pitchRunAfter (s : State) (r : Nat) (l : LaneNo) : Nat :=
  if r = 0 then (s.lane l).pitchRun else nextPitchRun (rowFails s r l) (s.lane l).pitchRun

/-- A lane after the feed check and the capture (R120, R122). -/
theorem rowCaptured_lane (s : State) (m : LaneNo) : (rowCaptured s).lane m =
    if m.val < s.panelWidth then
      { s.lane m with
        marksLost := ((feedMarked s.panel.nextRow s).lane m).marksLost
        pitchRun := pitchRunAfter s s.panel.nextRow m, lastRowTally := some (s.lane m).um }
    else { s.lane m with marksLost := ((feedMarked s.panel.nextRow s).lane m).marksLost } := by
  have honly := (MarksOnly.handMarks ((failingLanes s s.panel.nextRow).map (pitchMark s s.panel.nextRow)) s).lane m
  rw [← feedMarked] at honly
  have hwidth : (feedCheck s.panel.nextRow s).panelWidth = s.panelWidth :=
    (congrArg State.panelWidth (feedCheck_frame s.panel.nextRow s) :)
  rw [rowCaptured, captureLanes_lane, hwidth, pitchRunAfter]
  generalize s.panel.nextRow = r at honly ⊢
  by_cases hr : r = 0
  · subst hr
    rw [feedMarked_zero, feedCheck_zero, if_pos rfl]
  · rw [feedCheck_lane hr, feedCounted_lane, if_neg hr]
    split
    · rw [honly]; rfl
    · exact honly

theorem rowCaptured_marksLost (s : State) (m : LaneNo) :
    ((rowCaptured s).lane m).marksLost = ((feedMarked s.panel.nextRow s).lane m).marksLost := by
  rw [rowCaptured_lane]; split <;> rfl

theorem rowCaptured_coilStart (s : State) (m : LaneNo) : ((rowCaptured s).lane m).coilStart = (s.lane m).coilStart := by
  rw [rowCaptured_lane]; split <;> rfl

/-- FEED is asked for by the lanes whose pitch_run reaches 3 (R122). -/
theorem rowCaptured_stops (s : State) : (rowCaptured s).stops =
    { s.stops with feed := s.stops.feed || decide (∃ l, rowFails s s.panel.nextRow l = true ∧ 3 ≤ (s.lane l).pitchRun + 1) } := by
  have hcapture : (rowCaptured s).stops = (feedCheck s.panel.nextRow s).stops :=
    (congrArg State.stops (captureLanes_frame (feedCheck s.panel.nextRow s)) :)
  rw [hcapture]
  generalize s.panel.nextRow = r
  by_cases hr : r = 0
  · subst hr
    have hnone : ¬ ∃ l, rowFails s 0 l = true ∧ 3 ≤ (s.lane l).pitchRun + 1 := by
      rintro ⟨l, hl, -⟩
      exact (of_decide_eq_true hl).2.1 rfl
    rw [decide_eq_false hnone, Bool.or_false]
    rfl
  · have hcounted : (feedCounted r s).stops = s.stops := by
      have hframe : (feedCounted r s).stops = (feedMarked r s).stops := (congrArg State.stops (feedCounted_frame r s) :)
      rw [hframe, feedMarked, (MarksOnly.handMarks _ s).stops]
    have hstops : (∃ l, rowFails s r l = true ∧ 3 ≤ (s.lane l).pitchRun + 1) ↔ ∃ l, l ∈ feedStops s r := by
      simp only [mem_feedStops]
    rw [feedCheck_eq hr]
    by_cases hempty : feedStops s r = []
    · rw [if_pos (List.isEmpty_iff.2 hempty), decide_eq_false (by rw [hstops, hempty]; simp), Bool.or_false, hcounted]
    · rw [if_neg (mt List.isEmpty_iff.1 hempty), decide_eq_true (hstops.2 (List.exists_mem_of_ne_nil _ hempty)), Bool.or_true]
      exact congrArg (fun u : StopUnit => { u with feed := true }) hcounted

/-! ### What the row that falls due leaves -/

/-- The marks that the skip of a row hands (R125). -/
def skipMarks (s : State) : List Mark :=
  marksFor (rowMisses s s.panel.nextRow)
    (knotMark s .missedKnot s.panel.nextRow ((lanesOf s.panelLanes).map fun l => (s.lane l).um))

theorem knotMarks_rowCaptured (kind : MarkKind) (r : Nat) (captured : List Nat) (js : JunctionSet) :
    knotMarks (rowCaptured s) kind r captured js = knotMarks s kind r captured js := by
  have hknotter : ∀ n, (rowCaptured s).knotterOf n = s.knotterOf n := fun n => by
    rw [State.knotterOf, rowCaptured_line, State.knotterOf]
  simp only [knotMarks, hknotter]

/-- The skip of a row whose marks have been handed (R125). -/
def skipShown (ms : List Mark) (r : Nat) (fails : LaneSet) (t : State) : State :=
  State.raise .rowClosed (lanesOfMarks ms)
    ((t.modPanel fun p => { p with lastClosedRow := some r, rowsSkipped := p.rowsSkipped + 1 }).requestStop .rowOverrun fails)

theorem rowSkipped_eq (r : Nat) (captured : List Nat) (fails : LaneSet) (s : State) :
    rowSkipped r captured fails s = skipShown (knotMarks s .missedKnot r captured (expectedSet s r)) r fails
      (handMarks (knotMarks s .missedKnot r captured (expectedSet s r)) s) := rfl

theorem skipShown_kept (ms : List Mark) (r : Nat) (fails : LaneSet) (t : State) :
    (skipShown ms r fails t).marks = t.marks ∧ (skipShown ms r fails t).lanes = t.lanes ∧
      (skipShown ms r fails t).stops = { t.stops with rowOverrun := true } := ⟨rfl, rfl, rfl⟩

theorem rowSkipped_marks (r : Nat) (captured : List Nat) (fails : LaneSet) (s : State) :
    (rowSkipped r captured fails s).marks = (handMarks (knotMarks s .missedKnot r captured (expectedSet s r)) s).marks ∧
      (rowSkipped r captured fails s).lanes =
        (handMarks (knotMarks s .missedKnot r captured (expectedSet s r)) s).lanes := by
  rw [rowSkipped_eq]
  exact ⟨(skipShown_kept _ _ _ _).1, (skipShown_kept _ _ _ _).2.1⟩

theorem rowSkipped_rows (r : Nat) (captured : List Nat) (fails : LaneSet) (s : State) :
    (rowSkipped r captured fails s).rows = s.rows :=
  (congrArg State.rows (rowSkipped_frame r captured fails s) :)

theorem rowSkipped_stops (r : Nat) (captured : List Nat) (fails : LaneSet) (s : State) :
    (rowSkipped r captured fails s).stops = { s.stops with rowOverrun := true } := by
  rw [rowSkipped_eq, (skipShown_kept _ _ _ _).2.2, (MarksOnly.handMarks _ s).stops]

/-- The notices of a skip: STOP, and ROW_CLOSED with the lanes of its marks (R125). -/
theorem skipShown_raised (ms : List Mark) (r : Nat) (fails : LaneSet) (t : State) :
    Raised .stop (skipShown ms r fails t) ∧ Raised .rowClosed (skipShown ms r fails t) ∧
      ∀ l, laneIn (lanesOfMarks ms) l = true → Shown .rowClosed l (skipShown ms r fails t) :=
  ⟨Raised.heard (raised_raise .stop fails _) (heard_raise _ _ _), raised_raise _ _ _, fun _ hl => shown_raise hl _⟩

theorem skipMarks_nil (h : s.rows.length < 4) : skipMarks s = [] := by
  have hmiss : ∀ l, rowMisses s s.panel.nextRow l = false := fun l => by
    rw [rowMisses, decide_eq_false (not_le.2 h), Bool.false_and]
  simp [skipMarks, marksFor, hmiss]

theorem skipMarks_knots (h : 4 ≤ s.rows.length) :
    knotMarks (rowCaptured s) .missedKnot s.panel.nextRow ((lanesOf s.panelLanes).map fun l => (s.lane l).um)
        (expectedSet (rowCaptured s) s.panel.nextRow) = skipMarks s := by
  have hmiss : rowMisses s s.panel.nextRow = fun l => (expectedSet s s.panel.nextRow).getLsbD l.val := by
    funext l
    rw [rowMisses, decide_eq_true h, Bool.true_and]
  rw [rowCaptured_expectedSet, knotMarks_rowCaptured, knotMarks_eq, skipMarks, hmiss]

/-- The marks and the lanes of a row that has fallen due: those of its feed check, its captures and its skip. -/
theorem rowFell_marks (s : State) : (rowFell s).marks = (handMarks (skipMarks s) (rowCaptured s)).marks ∧
    (rowFell s).lanes = (handMarks (skipMarks s) (rowCaptured s)).lanes := by
  by_cases h : s.rows.length < 4
  · rw [rowFell_joins h, skipMarks_nil h, handMarks_nil]
    exact ⟨rfl, rfl⟩
  · obtain ⟨hmarks, hlanes⟩ := rowSkipped_marks s.panel.nextRow ((lanesOf s.panelLanes).map fun l => (s.lane l).um)
      (laneSetOf (failingLanes s s.panel.nextRow)) (rowCaptured s)
    rw [skipMarks_knots (not_lt.1 h)] at hmarks hlanes
    rw [rowFell_skipped (not_lt.1 h)]
    exact ⟨hmarks, hlanes⟩

theorem rowFell_markList (s : State) (l : LaneNo) :
    (rowFell s).markList l = (handMarks (skipMarks s) (rowCaptured s)).markList l :=
  congrArg (fun m : MarkStore => m.lists[l]) (rowFell_marks s).1

theorem rowFell_lane (s : State) (l : LaneNo) : (rowFell s).lane l = (handMarks (skipMarks s) (rowCaptured s)).lane l :=
  lane_of_lanes (rowFell_marks s).2 l

theorem rowCaptured_marksHeld (s : State) : (rowCaptured s).marksHeld = (feedMarked s.panel.nextRow s).marksHeld :=
  marksHeld_congr (congrArg MarkStore.lists (rowCaptured_marks s))

theorem rowFell_marksHeld (s : State) : (rowFell s).marksHeld = (handMarks (skipMarks s) (rowCaptured s)).marksHeld :=
  marksHeld_congr (congrArg MarkStore.lists (rowFell_marks s).1)

theorem advanceRow_stops (s : State) : (advanceRow s).stops = s.stops := rfl
theorem advanceRow_rows (s : State) : (advanceRow s).rows = s.rows := rfl
theorem advanceRow_port (s : State) (v : PortNo) : (advanceRow s).port v = s.port v := rfl

/-- A row that has fallen due fills the list or stands in it, so that the panel does not end with it (R132). -/
theorem rowFell_rows (s : State) : (rowFell s).rows =
    if s.rows.length < 4 then
      s.rows ++ [rowRecord s s.panel.nextRow ((lanesOf s.panelLanes).map fun l => (s.lane l).um)]
    else s.rows := by
  split
  · next h =>
    rw [rowFell_joins h]
    show (rowCaptured s).rows ++ [rowRecord (rowCaptured s) s.panel.nextRow _] = _
    rw [rowCaptured_rows, rowCaptured_rowRecord]
  · next h =>
    rw [rowFell_skipped (not_lt.1 h)]
    rw [advanceRow_rows, rowSkipped_rows, rowCaptured_rows]

theorem rowFallsDue_rowFell (s : State) : rowFallsDue s = rowFell s := by
  rw [rowFallsDue_eq, panelEndTest_unmet]
  rw [panelEndMet_iff, rowFell_rows]
  rintro ⟨-, hempty, -⟩
  split at hempty
  · exact List.append_ne_nil_of_right_ne_nil _ (List.cons_ne_nil _ _) hempty
  · next h => exact h (by rw [hempty]; decide)

theorem rowFell_stops (s : State) : (rowFell s).stops =
    { s.stops with
      feed := s.stops.feed || decide (∃ l, rowFails s s.panel.nextRow l = true ∧ 3 ≤ (s.lane l).pitchRun + 1)
      rowOverrun := s.stops.rowOverrun || decide (4 ≤ s.rows.length) } := by
  by_cases h : s.rows.length < 4
  · rw [rowFell_joins h, decide_eq_false (not_le.2 h), Bool.or_false]
    exact rowCaptured_stops s
  · rw [rowFell_skipped (not_lt.1 h), decide_eq_true (not_lt.1 h), Bool.or_true]
    rw [advanceRow_stops, rowSkipped_stops, rowCaptured_stops]

/-- ROW_DUE is raised with the lanes that failed (R123). -/
theorem rowFell_rowDue (h : s.rows.length < 4) (v : PortNo) : ((rowFell s).port v).notices.has .rowDue = true ∧
    ∀ l, rowFails s s.panel.nextRow l = true → laneIn (((rowFell s).port v).notices.lanesFor .rowDue) l = true := by
  rw [rowFell_joins h]
  refine ⟨raised_raise _ _ _ v, fun l hl => ?_⟩
  have hin : laneIn (laneSetOf (failingLanes s s.panel.nextRow)) l = true := (laneIn_failingLanes s _ l).trans hl
  exact (shown_raise (k := .rowDue) hin { rowCaptured s with
    rows := (rowCaptured s).rows ++ [rowRecord (rowCaptured s) s.panel.nextRow
      ((lanesOf s.panelLanes).map fun l => (s.lane l).um)] } v).2

/-- The skip of a row is shown: STOP, and ROW_CLOSED with the lanes of its marks (R125). -/
theorem rowFell_rowClosed (h : 4 ≤ s.rows.length) (v : PortNo) :
    ((rowFell s).port v).notices.has .rowClosed = true ∧ ((rowFell s).port v).notices.has .stop = true ∧
      ∀ l, rowMisses s s.panel.nextRow l = true →
        laneIn (((rowFell s).port v).notices.lanesFor .rowClosed) l = true := by
  obtain ⟨hstop, hraised, hclosed⟩ := skipShown_raised (skipMarks s) s.panel.nextRow
    (laneSetOf (failingLanes s s.panel.nextRow)) (handMarks (skipMarks s) (rowCaptured s))
  rw [rowFell_skipped h, rowSkipped_eq, skipMarks_knots h, advanceRow_port]
  exact ⟨hraised v, hstop v, fun l hl => (hclosed l ((lanesOfMarks_marksFor (fun _ => rfl) l).trans hl) v).2⟩

/-! ### The marks of the row, by lane -/

/-- The number of marks that a row hands: its feed check's, and its skip's. -/
def rowHanded (s : State) : Nat :=
  (allLanes.filter (rowFails s s.panel.nextRow)).length + (allLanes.filter (rowMisses s s.panel.nextRow)).length

theorem skipMarks_length (s : State) :
    (skipMarks s).length = (allLanes.filter (rowMisses s s.panel.nextRow)).length := marksFor_length _ _

theorem feedMarks_length (s : State) (r : Nat) :
    (marksFor (rowFails s r) (pitchMark s r)).length = (allLanes.filter (rowFails s r)).length := marksFor_length _ _

theorem rowFell_marksHeld_min (h : s.marksHeld ≤ 96) : (rowFell s).marksHeld = min 96 (s.marksHeld + rowHanded s) := by
  have hfeed := handMarks_marksHeld (marksFor (rowFails s s.panel.nextRow) (pitchMark s s.panel.nextRow)) h
  rw [← feedMarked_eq, feedMarks_length, ← rowCaptured_marksHeld] at hfeed
  rw [rowFell_marksHeld, handMarks_marksHeld _ (by omega), skipMarks_length, rowHanded]
  omega

/-- On a full pool every mark of the row is lost (R83). -/
theorem rowFell_full (h : 96 ≤ s.marksHeld) : (rowFell s).marks = s.marks ∧ ∀ l, ((rowFell s).lane l).marksLost =
    ((s.lane l).marksLost || rowFails s s.panel.nextRow l || rowMisses s s.panel.nextRow l) := by
  obtain ⟨hmarks, hlost⟩ := handMarks_full (marksFor (rowFails s s.panel.nextRow) (pitchMark s s.panel.nextRow)) h
  rw [← feedMarked_eq, ← rowCaptured_marks] at hmarks
  rw [← feedMarked_eq] at hlost
  have hheld : (rowCaptured s).marksHeld = s.marksHeld := marksHeld_congr (congrArg MarkStore.lists hmarks)
  obtain ⟨hmarks', hlost'⟩ := handMarks_full (s := rowCaptured s) (skipMarks s) (by omega)
  refine ⟨(rowFell_marks s).1.trans (hmarks'.trans hmarks), fun l => ?_⟩
  have hfeed : decide (∃ m ∈ marksFor (rowFails s s.panel.nextRow) (pitchMark s s.panel.nextRow), m.lane = l) =
      rowFails s s.panel.nextRow l := by
    rw [Bool.eq_iff_iff, decide_eq_true_iff, mem_marksFor_lane fun _ => rfl]
  have hskip : decide (∃ m ∈ skipMarks s, m.lane = l) = rowMisses s s.panel.nextRow l := by
    rw [Bool.eq_iff_iff, decide_eq_true_iff, skipMarks, mem_marksFor_lane fun _ => rfl]
  rw [rowFell_lane, hlost', rowCaptured_marksLost, hlost, hfeed, hskip]

/-- The list of a lane after the feed check's mark (R122). -/
def pitchedList (s : State) (r : Nat) (l : LaneNo) : List Mark :=
  if rowFails s r l then
    placed { keptMark s (pitchMark s r l) with made := s.marks.nextMade + chosenBefore (rowFails s r) l } (s.markList l)
  else s.markList l

/-- With an entry for each, every mark of the row stands in its place (R81, R83, R86). -/
theorem rowFell_room (h : s.marksHeld + rowHanded s ≤ 96) :
    (rowFell s).marks.nextMade = s.marks.nextMade + rowHanded s ∧ ∀ l,
      ((rowFell s).lane l).marksLost = (s.lane l).marksLost ∧
      (rowFell s).markList l =
        if rowMisses s s.panel.nextRow l then
          placed { keptMark s (knotMark s .missedKnot s.panel.nextRow
              ((lanesOf s.panelLanes).map fun l => (s.lane l).um) l) with
            made := s.marks.nextMade + (allLanes.filter (rowFails s s.panel.nextRow)).length +
              chosenBefore (rowMisses s s.panel.nextRow) l }
            (pitchedList s s.panel.nextRow l)
        else pitchedList s s.panel.nextRow l := by
  rw [rowHanded] at h ⊢
  have hroom : s.marksHeld + (marksFor (rowFails s s.panel.nextRow) (pitchMark s s.panel.nextRow)).length ≤ 96 := by
    rw [feedMarks_length]; omega
  obtain ⟨hmade, hheld, hframe⟩ := handAll_room hroom
  rw [← handMarks_room hroom, ← feedMarked_eq] at hmade hheld hframe
  rw [feedMarks_length] at hmade hheld
  have hroom' : (rowCaptured s).marksHeld + (skipMarks s).length ≤ 96 := by
    rw [rowCaptured_marksHeld, hheld, skipMarks_length]; omega
  obtain ⟨hmade', -, hframe'⟩ := handAll_room hroom'
  rw [← handMarks_room hroom'] at hmade' hframe'
  rw [skipMarks_length, rowCaptured_marks, hmade] at hmade'
  have hlists : ∀ l, (rowCaptured s).markList l = pitchedList s s.panel.nextRow l := fun l => by
    have hlist : (rowCaptured s).markList l = (feedMarked s.panel.nextRow s).markList l :=
      congrArg (fun m : MarkStore => m.lists[l]) (rowCaptured_marks s)
    rw [hlist, feedMarked_eq, handMarks_marksFor_markList (fun _ => rfl) hroom, pitchedList]
  refine ⟨?_, fun l => ⟨?_, ?_⟩⟩
  · rw [(rowFell_marks s).1, hmade', Nat.add_assoc]
  · have hlane : (handMarks (skipMarks s) (rowCaptured s)).lane l = (rowCaptured s).lane l :=
      (congrArg (fun v : State => v.lane l) hframe' :)
    have hlane' : (feedMarked s.panel.nextRow s).lane l = s.lane l := (congrArg (fun v : State => v.lane l) hframe :)
    rw [rowFell_lane, hlane, rowCaptured_marksLost, hlane']
  · have hlist := handMarks_marksFor_markList (s := rowCaptured s) (f := rowMisses s s.panel.nextRow)
      (mk := knotMark s .missedKnot s.panel.nextRow ((lanesOf s.panelLanes).map fun l => (s.lane l).um))
      (fun _ => rfl) hroom' l
    rw [rowFell_markList]
    refine hlist.trans ?_
    rw [keptMark_congr (s := s) (t := rowCaptured s) _ (rowCaptured_coilStart s _), hlists, rowCaptured_marks, hmade]

/-- A lane of the panel after the row has fallen due (R120, R122). -/
theorem rowFell_lane_in (h : l.val < s.panelWidth) : (rowFell s).lane l =
    { s.lane l with
      lastRowTally := some (s.lane l).um, pitchRun := pitchRunAfter s s.panel.nextRow l
      marksLost := ((rowFell s).lane l).marksLost } := by
  have honly := (MarksOnly.handMarks (skipMarks s) (rowCaptured s)).lane l
  rw [rowCaptured_lane, if_pos h, ← rowFell_lane] at honly
  exact honly

/-- A lane outside the panel (R113, R119). -/
theorem rowFell_lane_out (h : s.panelWidth ≤ l.val) : (rowFell s).lane l = s.lane l := by
  have hfails : rowFails s s.panel.nextRow l = false := decide_eq_false fun hf => absurd hf.1 (not_lt.2 h)
  have hmisses : rowMisses s s.panel.nextRow l = false := by
    have hbit : (junctionsInNet s.panelWidth).getLsbD l.val = false := by
      have hout : ¬ l.val < s.panelWidth - 1 := by omega
      simp [junctionsInNet, BitVec.getLsbD_ofNat, hout]
    rw [rowMisses, expectedSet, BitVec.getLsbD_and, hbit, Bool.and_false, Bool.and_false]
  rw [rowFell_lane, skipMarks, (handMarks_marksFor_others (fun _ => rfl) hmisses _).1, rowCaptured_lane, if_neg (not_lt.2 h),
    feedMarked_eq, (handMarks_marksFor_others (fun _ => rfl) hfails _).1]

/-! ### The statement -/

theorem pitchRunAfter_zero (h : s.panel.nextRow = 0) : pitchRunAfter s s.panel.nextRow l = (s.lane l).pitchRun := if_pos h

theorem pitchRunAfter_passed (h : s.panel.nextRow ≠ 0) (hf : ¬ rowFails s s.panel.nextRow l = true) :
    pitchRunAfter s s.panel.nextRow l = 0 := by
  rw [pitchRunAfter, if_neg h, nextPitchRun, if_neg hf]

theorem pitchRunAfter_failed (hf : rowFails s s.panel.nextRow l = true) : pitchRunAfter s s.panel.nextRow l =
    if 3 ≤ (s.lane l).pitchRun + 1 then 0 else (s.lane l).pitchRun + 1 := by
  have hr : s.panel.nextRow ≠ 0 := (of_decide_eq_true hf).2.1
  rw [pitchRunAfter, if_neg hr, nextPitchRun, if_pos hf]

/-- A junction expected in the panel's net is of a lane of the panel (R113, R119). -/
theorem rowMisses_lt {r : Nat} (h : rowMisses s r l = true) : l.val < s.panelWidth := by
  have hbit := (Bool.and_eq_true_iff.1 h).2
  rw [expectedSet, BitVec.getLsbD_and, Bool.and_eq_true_iff, junctionsInNet, BitVec.getLsbD_ofNat,
    Nat.testBit_two_pow_sub_one] at hbit
  have hlow : l.val < s.panelWidth - 1 := of_decide_eq_true (Bool.and_eq_true_iff.1 hbit.2).2
  omega

/-- Settles O45: the feed check, the captures and the place of the row, each where it is met; the marks lane by lane
(R118 to R125). -/
theorem rowFallsDueOnTheDraw : Obligations.RowFallsDueOnTheDraw := by
  intro s w hw q r rc draw due um expected touching feed fails misses below fed handed spot mark pitched
  have hwidth : s.panelWidth = w := by rw [State.panelWidth, hw]; rfl
  have hexpected : ∀ i, expectedSet s i = expected i := fun i => by
    rw [expectedSet, hwidth]; rfl
  have hfails : rowFails s r = fails := by
    funext l
    have htouch : touching l = Machine.touching (expectedSet s (r - 1)) l := by
      rw [hexpected]; exact touching_eq _ l
    have hfeed : feedFails s r l = decide (rc.feedTol * 100 <
        (feed l - ((rc.pitch + rc.allowance * touching l) * 100 : Nat)).natAbs) := by rw [htouch]; rfl
    rw [rowFails, hwidth, hfeed]
    exact decide_eq_decide.2 (and_congr_right fun _ => and_congr_right fun _ => decide_eq_true_iff)
  have hmisses : rowMisses s r = misses := by
    funext l
    rw [rowMisses, hexpected]
  have hhanded : rowHanded s = handed := by
    show (allLanes.filter (rowFails s r)).length + (allLanes.filter (rowMisses s r)).length = handed
    rw [hfails, hmisses]
  refine ⟨fun h => ?early, fun hlaying hdue => ⟨rowFell s, ?service, ?next, ?state, fun l hl => ?inPanel, fun l hl => ?outside,
    ?feedStop, fun hroom => ?room, fun hle => ?least, fun hfull => ?full, fun hjoin => ?joins, fun hskip => ?skips,
    ?frame⟩⟩
  case early =>
    refine congrArg Host.Outcome.next (if_neg ?_)
    rw [rowDueMet_iff]
    rintro ⟨hs, hle⟩
    exact h.elim (fun hn => hn hs) fun hlt => absurd hle (not_le.2 hlt)
  case service =>
    refine congrArg Host.Outcome.next ?_
    rw [rowFallsDueIfMet, if_pos ((rowDueMet_iff s).2 ⟨hlaying, hdue⟩), rowFallsDue_rowFell]
  case next =>
    by_cases h : s.rows.length < 4
    · rw [rowFell_panel_joins h]; rfl
    · rw [rowFell_panel_skipped (not_lt.1 h)]; rfl
  case state =>
    rw [← show s.panel.state = .laying from hlaying]
    by_cases h : s.rows.length < 4
    · rw [rowFell_panel_joins h]; rfl
    · rw [rowFell_panel_skipped (not_lt.1 h)]; rfl
  case inPanel =>
    have hlane := rowFell_lane_in (s := s) (l := l) (by rw [hwidth]; exact hl)
    have hrun : ((rowFell s).lane l).pitchRun = pitchRunAfter s r l := by rw [hlane]
    rw [hrun, ← hfails]
    exact ⟨hlane, pitchRunAfter_zero, pitchRunAfter_passed, pitchRunAfter_failed⟩
  case outside => exact rowFell_lane_out (by rw [hwidth]; exact hl)
  case feedStop =>
    rw [rowFell_stops, ← hfails]
    exact (Bool.or_eq_true_iff).trans (or_congr_right decide_eq_true_iff)
  case room =>
    obtain ⟨hmade, hlanes⟩ := rowFell_room (s := s) (by rw [hhanded]; exact hroom)
    rw [hhanded] at hmade
    refine ⟨hmade, fun l => ⟨(hlanes l).1, (hlanes l).2.trans ?_⟩⟩
    have hpitched : pitchedList s r l = pitched l := by
      rw [pitchedList, hfails]; rfl
    rw [show pitchedList s s.panel.nextRow l = pitched l from hpitched,
      show rowMisses s s.panel.nextRow = misses from hmisses, show rowFails s s.panel.nextRow = fails from hfails]
    by_cases hm : misses l = true
    · have hlt : l.val < w := by
        rw [← hmisses] at hm
        exact hwidth ▸ rowMisses_lt hm
      have hcaptured := capturedAt_eq w hlt fun l => (s.lane l).um
      rw [if_pos hm, if_pos hm, State.panelLanes, hwidth, lanesOf_lanesBelow]
      simp only [keptMark, knotMark, hcaptured]
      rfl
    · rw [if_neg hm, if_neg hm]
  case least => rw [rowFell_marksHeld_min hle, hhanded]
  case full =>
    obtain ⟨hmarks, hlost⟩ := rowFell_full hfull
    rw [← hfails, ← hmisses]
    exact ⟨hmarks, hlost⟩
  case joins =>
    have hrows := rowFell_rows s
    rw [if_pos hjoin, rowRecord, hexpected, State.panelLanes, hwidth, lanesOf_lanesBelow] at hrows
    rw [rowFell_panel_joins hjoin, rowFell_stops, decide_eq_false (not_le.2 hjoin), ← hfails]
    exact ⟨hrows, rfl, rfl, Bool.or_false _, rowFell_rowDue hjoin⟩
  case skips =>
    have hrows := rowFell_rows s
    rw [if_neg (not_lt.2 hskip)] at hrows
    rw [rowFell_panel_skipped hskip, rowFell_stops, decide_eq_true hskip, ← hmisses]
    exact ⟨hrows, rfl, rfl, Bool.or_true _, rowFell_rowClosed hskip⟩
  case frame =>
    have hframe := rowFell_frame s
    exact ⟨(congrArg State.positions hframe :), (congrArg State.recipes hframe :), (congrArg State.line hframe :),
      (congrArg State.cuts hframe :), (congrArg State.cals hframe :), (congrArg State.forcing hframe :),
      (congrArg State.inputs hframe :)⟩

end Sys2Proof.Machine
end


section
/-! PROOFS. Deferred cuts that join the list (08_cuts_and_packages.md R142, R143), and what a cut does to its lane:
its marks and its coordinates, its recipe switch and what follows (R87, R109, R146, R153). -/

namespace Sys2Proof.Machine

variable {s t u : State} {l m : LaneNo}

/-! ### Notices that an operation leaves as they are -/

/-- No port's lanes of a kind have changed. -/
def Unraised (k : NoticeKind) (s t : State) : Prop :=
  ∀ v, (t.port v).notices.lanesFor k = (s.port v).notices.lanesFor k

theorem Unraised.of_ports {k : NoticeKind} (h : t.ports = s.ports) : Unraised k s t := fun v => by
  rw [State.port, h, State.port]

theorem Unraised.trans {k : NoticeKind} (h : Unraised k s t) (h' : Unraised k t u) : Unraised k s u :=
  fun v => (h' v).trans (h v)

theorem unraised_raise {k j : NoticeKind} (h : j ≠ k) (ls : LaneSet) (s : State) : Unraised k s (State.raise j ls s) :=
  fun v => by rw [State.raise_port, Port.notify, NoticeSet.lanesFor_add, if_neg h.symm]

theorem unraised_setStartTrim (l : LaneNo) (s : State) : Unraised .cutDue s (setStartTrim l s) := by
  unfold setStartTrim
  dsimp only
  split
  · exact .of_ports rfl
  · exact (Unraised.of_ports (s := s) (t := s.modLane l fun x =>
      { x with trim := startTrim (s.activeRecipe l) (s.lane l).trim }) rfl).trans (unraised_raise (by decide) _ _)

theorem unraised_switchLane (l : LaneNo) (i : SlotNo) (s : State) : Unraised .cutDue s (switchLane l i s) := by
  have htake : Unraised .cutDue s (s.modLane l (Lane.takeSlot i)) := .of_ports rfl
  unfold switchLane
  dsimp only
  split
  · exact (htake.trans (unraised_setStartTrim l _)).trans (.of_ports rfl)
  · exact htake.trans (unraised_setStartTrim l _)
  · exact htake.trans (unraised_setStartTrim l _)
  all_goals exact htake

/-! ### Deferred cuts that join -/

/-- What deferred cuts that join touch: plans, the cut unit, the notices and the free values (R142). -/
structure PlansOnly (s t : State) : Prop where
  frame : { t with lanes := s.lanes, cuts := s.cuts, ports := s.ports, freeTick := s.freeTick } = s
  lane : ∀ m, t.lane m = { s.lane m with plan := (t.lane m).plan }
  planPos : ∀ m, (t.lane m).plan.planPos = (s.lane m).plan.planPos
  queue : t.cuts.queue = s.cuts.queue
  counter : t.cuts.counter = s.cuts.counter
  heard : Heard s t

theorem PlansOnly.refl (s : State) : PlansOnly s s := ⟨rfl, fun _ => rfl, fun _ => rfl, rfl, rfl, .refl s⟩

theorem PlansOnly.trans (h : PlansOnly s t) (h' : PlansOnly t u) : PlansOnly s u where
  frame := by
    have h1 := h'.frame
    have h2 := h.frame
    rw [← h1] at h2
    exact h2
  lane m := by
    have h1 := h'.lane m
    rw [h.lane m] at h1
    exact h1
  planPos m := (h'.planPos m).trans (h.planPos m)
  queue := h'.queue.trans h.queue
  counter := h'.counter.trans h.counter
  heard := h.heard.trans h'.heard

theorem joinDeferredCut_deferred {d : DeferredCut} (h : s.cuts.holdsOther d.what = true) :
    joinDeferredCut d s = s.modCuts fun u => { u with deferred := u.deferred ++ [d] } := if_pos h

/-- The plan of a lane whose deferred END cut has joined (R142). -/
def CoilPlan.endJoined (reason : CutReason) (x : CoilPlan) : CoilPlan := { x with state := .none, reason := reason }

/-- A deferred cut that joins: the list, the notices and the plans (R142, R143). -/
theorem joinDeferredCut_joins {d : DeferredCut} (h : s.cuts.holdsOther d.what = false) :
    (joinDeferredCut d s).cuts = (joinCut d.what d.duePos d.late s).cuts ∧
      (joinDeferredCut d s).ports = (joinCut d.what d.duePos d.late s).ports ∧
      { joinDeferredCut d s with lanes := s.lanes, cuts := s.cuts, ports := s.ports, freeTick := s.freeTick } = s ∧
      ∀ m, (joinDeferredCut d s).lane m =
        if d.what.isEndOf m then
          { s.lane m with plan := (s.lane m).plan.endJoined (joinCut d.what d.duePos d.late s).freeReason }
        else s.lane m := by
  have hframe := joinCut_frame d.what d.duePos d.late s
  have hlane : ∀ m, (joinCut d.what d.duePos d.late s).lane m = s.lane m := fun m =>
    (congrArg (fun v : State => v.lane m) hframe :)
  have hkept : { joinCut d.what d.duePos d.late s with
      lanes := s.lanes, cuts := s.cuts, ports := s.ports, freeTick := s.freeTick } = s :=
    (congrArg (fun v : State => { v with lanes := s.lanes, freeTick := s.freeTick }) hframe :)
  have heq : joinDeferredCut d s = match d.what with
      | .coil l .endCut => leaveDeferredEnd l (joinCut d.what d.duePos d.late s)
      | .coil _ .normal | .coil _ .short | .panel _ => joinCut d.what d.duePos d.late s :=
    if_neg (by rw [h]; exact Bool.false_ne_true)
  rw [heq]
  generalize joinCut d.what d.duePos d.late s = u at hlane hkept
  split
  · next l hw =>
    refine ⟨rfl, rfl, hkept, fun m => ?_⟩
    have hend : d.what.isEndOf m = true ↔ m = l := by
      rw [hw, CutWhat.isEndOf, beq_self_eq_true, Bool.and_true, beq_iff_eq]
      exact eq_comm
    rw [leaveDeferredEnd, State.modLane_lane, ← hlane m]
    exact if_congr hend.symm rfl rfl
  · next l hw => exact ⟨rfl, rfl, hkept, fun m => by rw [hw, hlane]; simp [CutWhat.isEndOf]⟩
  · next l hw => exact ⟨rfl, rfl, hkept, fun m => by rw [hw, hlane]; simp [CutWhat.isEndOf]⟩
  · next l hw => exact ⟨rfl, rfl, hkept, fun m => by rw [hw, hlane]; simp [CutWhat.isEndOf]⟩

/-- Whether or not it joins, a deferred cut touches plans, the cut unit and the notices. -/
theorem PlansOnly.joinDeferredCut (d : DeferredCut) (s : State) : PlansOnly s (Machine.joinDeferredCut d s) := by
  cases h : s.cuts.holdsOther d.what with
  | true =>
    rw [joinDeferredCut_deferred h]
    exact ⟨rfl, fun _ => rfl, fun _ => rfl, rfl, rfl, .of_ports rfl⟩
  | false =>
    obtain ⟨hcuts, hports, hframe, hlane⟩ := joinDeferredCut_joins h
    refine ⟨hframe, fun m => ?_, fun m => ?_, by rw [hcuts, joinCut_cuts], by rw [hcuts, joinCut_cuts],
      (heard_joinCut d.what d.duePos d.late s).trans (Heard.of_ports (s := joinCut d.what d.duePos d.late s) hports)⟩
    · rw [hlane]; split <;> rfl
    · rw [hlane]; split <;> rfl

/-- A lane keeps its plan but where its own END cut joins. -/
theorem joinDeferredCut_lane {d : DeferredCut} (h : d.what.isEndOf m = false) (s : State) :
    (joinDeferredCut d s).lane m = s.lane m := by
  cases ho : s.cuts.holdsOther d.what with
  | true => rw [joinDeferredCut_deferred ho]; rfl
  | false => rw [(joinDeferredCut_joins ho).2.2.2, h]; rfl

/-- The deferred cuts, tried one after the other (R142). -/
def joinAll (ds : List DeferredCut) (s : State) : State := ds.foldl (fun t d => joinDeferredCut d t) s

theorem joinAll_cons (d : DeferredCut) (ds : List DeferredCut) (s : State) :
    joinAll (d :: ds) s = joinAll ds (joinDeferredCut d s) := rfl

theorem joinDeferred_eq (s : State) :
    joinDeferred s = joinAll s.cuts.deferred (s.modCuts fun u => { u with deferred := [] }) := rfl

theorem PlansOnly.joinAll (ds : List DeferredCut) (s : State) : PlansOnly s (Machine.joinAll ds s) := by
  induction ds generalizing s with
  | nil => exact .refl s
  | cons d ds ih => exact (PlansOnly.joinDeferredCut d s).trans (ih _)

theorem PlansOnly.joinDeferred (s : State) : PlansOnly s (Machine.joinDeferred s) :=
  PlansOnly.trans (t := s.modCuts fun u => { u with deferred := [] })
    ⟨rfl, fun _ => rfl, fun _ => rfl, rfl, rfl, .of_ports rfl⟩ (PlansOnly.joinAll _ _)

theorem joinAll_lane {ds : List DeferredCut} (h : ∀ d ∈ ds, d.what.isEndOf m = false) (s : State) :
    (joinAll ds s).lane m = s.lane m := by
  induction ds generalizing s with
  | nil => rfl
  | cons d ds ih =>
    rw [joinAll_cons, ih (fun e he => h e (List.mem_cons_of_mem d he)), joinDeferredCut_lane (h d List.mem_cons_self)]

theorem joinDeferred_lane (h : ∀ d ∈ s.cuts.deferred, d.what.isEndOf m = false) : (joinDeferred s).lane m = s.lane m :=
  joinAll_lane h _

theorem joinDeferred_nil (h : s.cuts.deferred = []) : (joinDeferred s).cuts = s.cuts := by
  have hcuts : ({ s.cuts with deferred := [] } : CutUnit) = s.cuts := by rw [← h]
  rw [joinDeferred_eq, h]
  exact hcuts

/-- PANEL cuts stay deferred while the list holds a COIL entry (R142). -/
theorem joinAll_panels {ds : List DeferredCut} (hds : ∀ d ∈ ds, d.what.isCoil = false)
    (hlist : ∃ e ∈ s.cuts.list, e.what.isCoil = true) :
    (joinAll ds s).cuts = { s.cuts with deferred := s.cuts.deferred ++ ds } := by
  induction ds generalizing s with
  | nil => rw [List.append_nil]; rfl
  | cons d ds ih =>
    have hother : s.cuts.holdsOther d.what = true := by
      obtain ⟨e, he, hcoil⟩ := hlist
      exact (holdsOther_iff _ _).2 ⟨e, he, by rw [hcoil, hds d List.mem_cons_self]; decide⟩
    rw [joinAll_cons, joinDeferredCut_deferred hother,
      ih (s := s.modCuts fun u => { u with deferred := u.deferred ++ [d] }) (fun e he => hds e (List.mem_cons_of_mem d he)) hlist]
    show ({ s.cuts with deferred := s.cuts.deferred ++ [d] ++ ds } : CutUnit) = _
    rw [List.append_assoc, List.singleton_append]

theorem joinDeferred_panels (hds : ∀ d ∈ s.cuts.deferred, d.what.isCoil = false)
    (hlist : ∃ e ∈ s.cuts.list, e.what.isCoil = true) : (joinDeferred s).cuts = s.cuts :=
  joinAll_panels (s := s.modCuts fun u => { u with deferred := [] }) hds hlist

/-- The entry that a deferred cut joins the list with, by the places taken (R143). -/
def DeferredCut.joined (d : DeferredCut) (taken : Nat) : CutEntry :=
  { what := d.what, duePos := d.duePos, late := d.late, state := if taken < 8 then .requested else .held }

theorem joinDeferredCut_joined {d : DeferredCut} (h : s.cuts.holdsOther d.what = false) :
    (joinDeferredCut d s).cuts =
      { s.cuts with list := s.cuts.list ++ [d.joined (s.cuts.queue.length + s.cuts.requested)] } := by
  rw [(joinDeferredCut_joins h).1, joinCut_cuts]
  rfl

/-- The one place that an entry takes where one was free (R143). -/
theorem requested_joined (u : CutUnit) (d : DeferredCut) (n : Nat) :
    ({ u with list := u.list ++ [d.joined n] } : CutUnit).requested = u.requested + if n < 8 then 1 else 0 := by
  rw [requested_append]
  congr 1
  by_cases h : n < 8 <;> simp [DeferredCut.joined, CutEntry.isRequested, h]

/-- COIL cuts join a list of COIL entries in their order, each REQUESTED while a place is free (R142, R143). -/
theorem joinAll_coils {ds : List DeferredCut} (hds : ∀ d ∈ ds, d.what.isCoil = true)
    (hlist : ∀ e ∈ s.cuts.list, e.what.isCoil = true) :
    (joinAll ds s).cuts = { s.cuts with
      list := s.cuts.list ++ ds.mapIdx fun i d => d.joined (s.cuts.queue.length + s.cuts.requested + i) } := by
  induction ds generalizing s with
  | nil => rw [List.mapIdx_nil, List.append_nil]; rfl
  | cons d ds ih =>
    have hd : d.what.isCoil = true := hds d List.mem_cons_self
    have hother : s.cuts.holdsOther d.what = false := by
      rw [Bool.eq_false_iff, Ne, holdsOther_iff]
      rintro ⟨e, he, hne⟩
      exact hne ((hlist e he).trans hd.symm)
    have hcuts := joinDeferredCut_joined hother
    have hrest : ∀ (i : Nat) (c : DeferredCut),
        c.joined ((joinDeferredCut d s).cuts.queue.length + (joinDeferredCut d s).cuts.requested + i) =
          c.joined (s.cuts.queue.length + s.cuts.requested + (i + 1)) := fun i c => by
      rw [hcuts, requested_joined]
      unfold DeferredCut.joined
      congr 1
      refine if_congr ?_ rfl rfl
      show s.cuts.queue.length + _ + i < 8 ↔ _
      split <;> omega
    rw [joinAll_cons, ih (fun e he => hds e (List.mem_cons_of_mem d he)) fun e he => ?_, List.mapIdx_cons]
    · simp only [hrest]
      rw [hcuts]
      simp
    · rw [hcuts] at he
      obtain he | he := List.mem_append.1 he
      · exact hlist e he
      · rw [List.mem_singleton.1 he]; exact hd

/-- An entry that joins REQUESTED is shown with CUT_DUE and its lanes (R143). -/
theorem joinAll_cutDue {ds : List DeferredCut} {e : CutEntry} (he : e ∈ (joinAll ds s).cuts.list)
    (hreq : e.state = .requested) :
    e ∈ s.cuts.list ∨ Raised .cutDue (joinAll ds s) ∧
      ∀ l, laneIn e.what.lanes l = true → Shown .cutDue l (joinAll ds s) := by
  induction ds generalizing s with
  | nil => exact .inl he
  | cons d ds ih =>
    rw [joinAll_cons] at he ⊢
    obtain hold | hnew := ih he
    · cases h : s.cuts.holdsOther d.what with
      | true => rw [joinDeferredCut_deferred h] at hold; exact .inl hold
      | false =>
        rw [joinDeferredCut_joined h] at hold
        obtain hs | hj := List.mem_append.1 hold
        · exact .inl hs
        · obtain rfl := List.mem_singleton.1 hj
          have hfree : s.cuts.queue.length + s.cuts.requested < 8 := by
            by_contra hfull
            exact absurd ((if_neg hfull).symm.trans hreq) (by decide)
          obtain ⟨u, -, hraise⟩ := joinCut_cutDue (w := d.what) (due := d.duePos) (late := d.late) hfree
          have hports := (joinDeferredCut_joins h).2.1
          have hheard : Heard (joinCut d.what d.duePos d.late s) (joinAll ds (joinDeferredCut d s)) :=
            (Heard.of_ports hports).trans (PlansOnly.joinAll ds _).heard
          rw [hraise] at hheard
          exact .inr ⟨(raised_raise _ _ _).heard hheard, fun l hl => (shown_raise hl u).heard hheard⟩
    · exact .inr hnew

/-- A plan that has lost its END cut (R142). -/
abbrev CoilPlan.Ended (x : CoilPlan) : Prop := x.state = .none ∧ x.reason ≠ .endCut

theorem freeReason_ne_endCut (s : State) : s.freeReason ≠ .endCut := by
  unfold State.freeReason
  split <;> decide

/-- A lane whose END cut is among the COIL cuts that join has its plan ended (R142). -/
theorem joinAll_ended {ds : List DeferredCut} (hds : ∀ d ∈ ds, d.what.isCoil = true)
    (hlist : ∀ e ∈ s.cuts.list, e.what.isCoil = true)
    (h : (∃ d ∈ ds, d.what.isEndOf m = true) ∨ (s.lane m).plan.Ended) : ((joinAll ds s).lane m).plan.Ended := by
  induction ds generalizing s with
  | nil => exact h.elim (fun ⟨d, hd, _⟩ => absurd hd List.not_mem_nil) id
  | cons d ds ih =>
    have hd : d.what.isCoil = true := hds d List.mem_cons_self
    have hother : s.cuts.holdsOther d.what = false := by
      rw [Bool.eq_false_iff, Ne, holdsOther_iff]
      rintro ⟨e, he, hne⟩
      exact hne ((hlist e he).trans hd.symm)
    obtain ⟨-, -, -, hlane⟩ := joinDeferredCut_joins hother
    refine ih (fun e he => hds e (List.mem_cons_of_mem d he)) (fun e he => ?_) ?_
    · rw [joinDeferredCut_joined hother] at he
      obtain he | he := List.mem_append.1 he
      · exact hlist e he
      · rw [List.mem_singleton.1 he]; exact hd
    · rw [hlane m]
      by_cases hend : d.what.isEndOf m = true
      · rw [if_pos hend]
        exact .inr ⟨rfl, freeReason_ne_endCut _⟩
      · rw [if_neg hend]
        refine h.imp (fun ⟨e, he, hm⟩ => ?_) id
        obtain rfl | he := List.mem_cons.1 he
        · exact absurd hm hend
        · exact ⟨e, he, hm⟩

/-! ### A cut of one lane -/

/-- The record of a lane after a cut at a position, its switch apart (R146, R151). -/
def Lane.cutAt (cut : Nat) (x : Lane) : Lane :=
  { x with coilStart := cut, spliceStart := x.spliceStart.map (max cut), marksLost := false, trimLimited := false }

theorem cutLane_lane (isEnd : Bool) (l m : LaneNo) (s : State) :
    (cutLane isEnd l s).lane m = if m = l then (s.lane m).cutAt (cutPosition s l) else s.lane m :=
  State.modLane_lane _ l m _

theorem cutLane_markList (isEnd : Bool) (l m : LaneNo) (s : State) :
    (cutLane isEnd l s).markList m = if m = l then marksStay isEnd (cutPosition s l) (s.markList l) else s.markList m :=
  State.setMarkList_markList _ l m _

theorem cutLane_frame (isEnd : Bool) (l : LaneNo) (s : State) :
    { cutLane isEnd l s with lanes := s.lanes, marks := s.marks } = s := rfl

theorem cutLane_nextMade (isEnd : Bool) (l : LaneNo) (s : State) :
    (cutLane isEnd l s).marks.nextMade = s.marks.nextMade := rfl

/-! ### The switch and what follows at a coil's cut -/

/-- A lane after a pending switch at its cut (R109, R111). -/
def Lane.switchedAtCut (isEnd : Bool) (recipe : SlotNo → Recipe) (x : Lane) : Lane :=
  match x.pendingSlot with
  | none => x
  | some i =>
    if isEnd then { x with pendingSlot := none, slot := i, limitStrike := false }
    else { x with pendingSlot := none }.restartedUnder (recipe i) i

theorem switchedAtCut_none {x : Lane} (isEnd : Bool) (recipe : SlotNo → Recipe) (h : x.pendingSlot = none) :
    x.switchedAtCut isEnd recipe = { x with pendingSlot := none } := by
  rw [Lane.switchedAtCut, h]
  exact congrArg (fun o => ({ x with pendingSlot := o } : Lane)) h

theorem switchedAtCut_some {x : Lane} (isEnd : Bool) (recipe : SlotNo → Recipe) {i : SlotNo} (h : x.pendingSlot = some i) :
    x.switchedAtCut isEnd recipe =
      if isEnd = true then { x with pendingSlot := none, slot := i, limitStrike := false }
      else { x with pendingSlot := none }.restartedUnder (recipe i) i := by
  rw [Lane.switchedAtCut, h]

theorem laneSwitch_none (isEnd : Bool) (h : (s.lane l).pendingSlot = none) : laneSwitch isEnd l s = s := by
  unfold laneSwitch
  rw [h]

theorem laneSwitch_some (isEnd : Bool) {i : SlotNo} (h : (s.lane l).pendingSlot = some i) :
    laneSwitch isEnd l s = State.raise .recipe (laneBit l)
      (if isEnd then (s.modLane l fun x => { x with pendingSlot := none }).modLane l (Lane.takeSlot i)
       else switchLane l i (s.modLane l fun x => { x with pendingSlot := none })) := by
  unfold laneSwitch
  rw [h]

theorem laneSwitch_lane (isEnd : Bool) (l : LaneNo) (s : State) :
    (laneSwitch isEnd l s).lane l = (s.lane l).switchedAtCut isEnd s.recipe := by
  cases h : (s.lane l).pendingSlot with
  | none => rw [laneSwitch_none isEnd h, Lane.switchedAtCut, h]
  | some i =>
    rw [laneSwitch_some isEnd h, Lane.switchedAtCut, h, State.raise_lane]
    cases isEnd with
    | true => simp only [if_true, State.modLane_lane_self]; rfl
    | false =>
      show (switchLane l i _).lane l = _
      rw [switchLane_lane, State.modLane_lane_self]
      rfl

theorem laneSwitch_lane_ne (isEnd : Bool) (h : m ≠ l) (s : State) : (laneSwitch isEnd l s).lane m = s.lane m := by
  have hkept : ∀ f, (s.modLane l f).lane m = s.lane m := fun f => by rw [State.modLane_lane, if_neg h]
  cases hp : (s.lane l).pendingSlot with
  | none => rw [laneSwitch_none isEnd hp]
  | some i =>
    rw [laneSwitch_some isEnd hp, State.raise_lane]
    cases isEnd with
    | true => simp only [if_true, State.modLane_lane, if_neg h]
    | false =>
      show (switchLane l i _).lane m = _
      rw [switchLane_lane_ne h, hkept]

theorem laneSwitch_frame (isEnd : Bool) (l : LaneNo) (s : State) :
    { laneSwitch isEnd l s with lanes := s.lanes, ports := s.ports } = s := by
  cases hp : (s.lane l).pendingSlot with
  | none => rw [laneSwitch_none isEnd hp]
  | some i =>
    rw [laneSwitch_some isEnd hp]
    cases isEnd with
    | true => rfl
    | false =>
      have h := switchLane_frame l i (s.modLane l fun x => { x with pendingSlot := none })
      exact (congrArg (fun v : State => { v with lanes := s.lanes, ports := s.ports }) h :)

/-- A switch at a coil's cut is shown with RECIPE, and with TRIM where the trim changed (R70, R109). -/
theorem laneSwitch_notices (isEnd : Bool) (l : LaneNo) (s : State) :
    Heard s (laneSwitch isEnd l s) ∧ Unraised .cutDue s (laneSwitch isEnd l s) ∧
      ((s.lane l).pendingSlot ≠ none → Shown .recipe l (laneSwitch isEnd l s)) ∧
      (((laneSwitch isEnd l s).lane l).trim ≠ (s.lane l).trim → Shown .trim l (laneSwitch isEnd l s)) := by
  cases hp : (s.lane l).pendingSlot with
  | none =>
    rw [laneSwitch_none isEnd hp]
    exact ⟨.refl s, .of_ports rfl, fun h => absurd rfl h, fun h => absurd rfl h⟩
  | some i =>
    rw [laneSwitch_some isEnd hp]
    cases isEnd with
    | true =>
      refine ⟨(Heard.of_ports rfl).trans (heard_raise _ _ _), (Unraised.of_ports rfl).trans (unraised_raise (by decide) _ _),
        fun _ => shown_raise_self _ _ _, fun h => absurd ?_ h⟩
      simp only [if_true, State.raise_lane, State.modLane_lane_self]
      rfl
    | false =>
      have hfree : Heard s (s.modLane l fun x => { x with pendingSlot := none }) := .of_ports rfl
      have hfree' : Unraised .cutDue s (s.modLane l fun x => { x with pendingSlot := none }) := .of_ports rfl
      refine ⟨(hfree.trans (heard_switchLane l i _)).trans (heard_raise _ _ _),
        (hfree'.trans (unraised_switchLane l i _)).trans (unraised_raise (by decide) _ _),
        fun _ => shown_raise_self _ _ _, fun h => ?_⟩
      refine Shown.heard (switchLane_shown (s := s.modLane l fun x => { x with pendingSlot := none }) fun heq => h ?_)
        (heard_raise _ _ _)
      rw [State.raise_lane]
      refine heq.trans ?_
      rw [State.modLane_lane_self]

/-- The plan of a coil that follows a cut (R153). -/
def nextCoil (recipe : SlotNo → Recipe) (x : Lane) : CoilPlan :=
  { state := .watching, planPos := x.coilStart + (recipe x.slot).coilM * 1000000, reason := .normal }

theorem afterCoilCut_next (l : LaneNo) (s : State) : afterCoilCut false l s = freshPlan l s := rfl

theorem afterCoilCut_lane (isEnd : Bool) (l : LaneNo) (s : State) : (afterCoilCut isEnd l s).lane l =
    if isEnd then { s.lane l with state := .idle } else { s.lane l with plan := nextCoil s.recipe (s.lane l) } := by
  cases isEnd with
  | true => exact (State.raise_lane _ _ _ _).trans (State.modLane_lane_self _ l _)
  | false => rw [afterCoilCut_next, freshPlan, State.modLane_lane_self]; rfl

theorem afterCoilCut_lane_ne (isEnd : Bool) (h : m ≠ l) (s : State) : (afterCoilCut isEnd l s).lane m = s.lane m := by
  cases isEnd with
  | true => exact (State.raise_lane _ _ _ _).trans ((State.modLane_lane _ l m _).trans (if_neg h))
  | false => rw [afterCoilCut_next, freshPlan, State.modLane_lane, if_neg h]

theorem afterCoilCut_frame (isEnd : Bool) (l : LaneNo) (s : State) :
    { afterCoilCut isEnd l s with lanes := s.lanes, ports := s.ports } = s := by
  cases isEnd <;> rfl

theorem afterCoilCut_notices (isEnd : Bool) (l : LaneNo) (s : State) :
    Heard s (afterCoilCut isEnd l s) ∧ Unraised .cutDue s (afterCoilCut isEnd l s) ∧
      (isEnd = true → Shown .laneState l (afterCoilCut isEnd l s)) := by
  cases isEnd with
  | true =>
    exact ⟨heard_setLaneState l .idle s, (Unraised.of_ports rfl).trans (unraised_raise (by decide) _ _),
      fun _ => shown_setLaneState l .idle s⟩
  | false => exact ⟨.of_ports rfl, .of_ports rfl, fun h => absurd h Bool.false_ne_true⟩

end Sys2Proof.Machine
end


section
/-! PROOFS. CUT_DONE at a coil (08_cuts_and_packages.md R145 to R153; 06_recipes_and_patterns.md R109). -/

namespace Sys2Proof.Machine

variable {s t u : State} {l m : LaneNo} {p : PortNo} {reason : CutReason}

theorem restartedUnder_plan (r : Recipe) (i : SlotNo) (x : Lane) : (x.restartedUnder r i).plan = x.plan := by
  unfold Lane.restartedUnder
  cases x.state <;> rfl

theorem restartedUnder_coilStart (r : Recipe) (i : SlotNo) (x : Lane) : (x.restartedUnder r i).coilStart = x.coilStart := by
  unfold Lane.restartedUnder
  cases x.state <;> rfl

/-! ### The package of a coil -/

/-- The package of a coil's cut (R148 to R151). -/
def coilPackage (l : LaneNo) (reason : CutReason) (s : State) : Package :=
  packageOf s .coil (some l) (s.lane l).slot none
    (coilFlags (s.activeRecipe l) reason [laneCut (reason == .endCut) s l]) [laneCut (reason == .endCut) s l]

/-- The package of a coil, from the marks gone out and the length of its lane (R148 to R151). -/
theorem coilPackage_eq {out : List Mark} {length : Nat} (hout : (laneCut (reason == .endCut) s l).out = out)
    (hlength : (laneCut (reason == .endCut) s l).lengthUm = length) : coilPackage l reason s =
      { number := s.cuts.counter, kind := .coil, lane := some l, slot := (s.lane l).slot, lengths := [length / 1000]
        rows := none
        flags :=
          { short := decide (reason = .short), endCut := decide (reason = .endCut)
            overlength := decide ((s.recipe (s.lane l).slot).coilM * 1000000 +
              (s.recipe (s.lane l).slot).overlengthMm * 1000 < length)
            spliceExcess := decide ((s.recipe (s.lane l).slot).maxSplices < countKind out .splice)
            marksIncomplete := (s.lane l).marksLost
            marksTruncated := decide (12 < out.length), trimLimited := (s.lane l).trimLimited, rowsSkipped := false }
        totals := totalsOf out
        markList := (out.take 12).map (packageMark (s.lane l).coilStart) } := by
  have hall : allOut [laneCut (reason == .endCut) s l] = out := by
    rw [allOut, List.flatMap_singleton, hout]
  have hmarks : allPackageMarks [laneCut (reason == .endCut) s l] = out.map (packageMark (s.lane l).coilStart) := by
    rw [allPackageMarks, List.flatMap_singleton, hout]; rfl
  have hshort : (reason == .short) = decide (reason = .short) := by cases reason <;> rfl
  have hend : (reason == .endCut) = decide (reason = .endCut) := by cases reason <;> rfl
  have hover : isOverlength (s.activeRecipe l) [laneCut (reason == .endCut) s l] =
      decide ((s.recipe (s.lane l).slot).coilM * 1000000 + (s.recipe (s.lane l).slot).overlengthMm * 1000 < length) := by
    rw [isOverlength, List.any_cons, List.any_nil, Bool.or_false, hlength]; rfl
  have hsplice : spliceExcess (s.activeRecipe l) [laneCut (reason == .endCut) s l] =
      decide ((s.recipe (s.lane l).slot).maxSplices < countKind out .splice) := by
    rw [spliceExcess, List.any_cons, List.any_nil, Bool.or_false, hout]; rfl
  have hlost : [laneCut (reason == .endCut) s l].any (·.marksLost) = (s.lane l).marksLost := by
    rw [List.any_cons, List.any_nil, Bool.or_false]; rfl
  have hlimited : [laneCut (reason == .endCut) s l].any (·.trimLimited) = (s.lane l).trimLimited := by
    rw [List.any_cons, List.any_nil, Bool.or_false]; rfl
  rw [coilPackage, packageOf, coilFlags, hall, hmarks, hover, hsplice, hlost, hlimited, List.map_singleton, hlength, hshort,
    hend, List.map_take, markListMax]

/-! ### The cut taken -/

/-- The state of an accepted coil's cut before its switch: the lane cut, the entry gone, the package queued (R146). -/
def coilTaken (l : LaneNo) (reason : CutReason) (s : State) : State :=
  queuePackage (coilPackage l reason s) (laneBit l) (removeEntry (isRequestedCoil l) (cutLane (reason == .endCut) l s))

theorem coilTaken_lane (l m : LaneNo) (reason : CutReason) (s : State) : (coilTaken l reason s).lane m =
    if m = l then (s.lane m).cutAt (cutPosition s l) else s.lane m :=
  cutLane_lane (reason == .endCut) l m s

theorem coilTaken_markList (l m : LaneNo) (reason : CutReason) (s : State) : (coilTaken l reason s).markList m =
    if m = l then marksStay (reason == .endCut) (cutPosition s l) (s.markList l) else s.markList m :=
  cutLane_markList (reason == .endCut) l m s

theorem coilTaken_cuts (l : LaneNo) (reason : CutReason) (s : State) : (coilTaken l reason s).cuts =
    { s.cuts with
      list := s.cuts.list.eraseP (isRequestedCoil l), queue := s.cuts.queue ++ [coilPackage l reason s]
      counter := nextNumber s.cuts.counter } := rfl

theorem coilTaken_frame (l : LaneNo) (reason : CutReason) (s : State) :
    { coilTaken l reason s with lanes := s.lanes, marks := s.marks, cuts := s.cuts, ports := s.ports } = s := rfl

theorem coilTaken_notices (l : LaneNo) (reason : CutReason) (s : State) :
    Heard s (coilTaken l reason s) ∧ Unraised .cutDue s (coilTaken l reason s) ∧
      Shown .package l (coilTaken l reason s) :=
  ⟨(Heard.of_ports (s := s) (t := (removeEntry (isRequestedCoil l) (cutLane (reason == .endCut) l s)).modCuts fun u =>
      { u with queue := u.queue ++ [coilPackage l reason s], counter := nextNumber u.counter }) rfl).trans (heard_raise _ _ _),
    (Unraised.of_ports (s := s) (t := (removeEntry (isRequestedCoil l) (cutLane (reason == .endCut) l s)).modCuts fun u =>
      { u with queue := u.queue ++ [coilPackage l reason s], counter := nextNumber u.counter }) rfl).trans
      (unraised_raise (by decide) _ _),
    shown_raise_self _ _ _⟩

/-! ### What follows the cut, before the deferred cuts -/

/-- The state of an accepted coil's cut before the deferred cuts join (R146). -/
def coilFollowed (l : LaneNo) (reason : CutReason) (s : State) : State :=
  afterCoilCut (reason == .endCut) l (laneSwitch (reason == .endCut) l (coilTaken l reason s))

theorem acceptCoil_eq (l : LaneNo) (reason : CutReason) (s : State) :
    acceptCoil l reason s = joinDeferred (coilFollowed l reason s) := rfl

/-- What follows a coil's cut touches lanes, marks, the cut unit and the notices. -/
theorem coilFollowed_frame (l : LaneNo) (reason : CutReason) (s : State) :
    { coilFollowed l reason s with lanes := s.lanes, marks := s.marks, cuts := s.cuts, ports := s.ports } = s := by
  have hafter := afterCoilCut_frame (reason == .endCut) l (laneSwitch (reason == .endCut) l (coilTaken l reason s))
  have hswitch := laneSwitch_frame (reason == .endCut) l (coilTaken l reason s)
  calc { coilFollowed l reason s with lanes := s.lanes, marks := s.marks, cuts := s.cuts, ports := s.ports }
    _ = { ({ coilFollowed l reason s with
            lanes := (laneSwitch (reason == .endCut) l (coilTaken l reason s)).lanes
            ports := (laneSwitch (reason == .endCut) l (coilTaken l reason s)).ports } : State) with
          lanes := s.lanes, marks := s.marks, cuts := s.cuts, ports := s.ports } := rfl
    _ = { laneSwitch (reason == .endCut) l (coilTaken l reason s) with
          lanes := s.lanes, marks := s.marks, cuts := s.cuts, ports := s.ports } := by rw [coilFollowed, hafter]
    _ = { ({ laneSwitch (reason == .endCut) l (coilTaken l reason s) with
            lanes := (coilTaken l reason s).lanes, ports := (coilTaken l reason s).ports } : State) with
          lanes := s.lanes, marks := s.marks, cuts := s.cuts, ports := s.ports } := rfl
    _ = s := by rw [hswitch, coilTaken_frame]

/-- The cut unit and the marks are those of the cut taken. -/
theorem coilFollowed_taken (l : LaneNo) (reason : CutReason) (s : State) :
    (coilFollowed l reason s).cuts = (coilTaken l reason s).cuts ∧
      ∀ m, (coilFollowed l reason s).markList m = (coilTaken l reason s).markList m := by
  have hafter := afterCoilCut_frame (reason == .endCut) l (laneSwitch (reason == .endCut) l (coilTaken l reason s))
  have hswitch := laneSwitch_frame (reason == .endCut) l (coilTaken l reason s)
  have hcuts := (congrArg State.cuts hafter :)
  have hcuts' := (congrArg State.cuts hswitch :)
  have hmarks := (congrArg State.marks hafter :)
  have hmarks' := (congrArg State.marks hswitch :)
  exact ⟨hcuts.trans hcuts', fun m => congrArg (fun v : MarkStore => v.lists[m]) (hmarks.trans hmarks')⟩

/-- The lane of a coil after its cut and its switch (R109, R146, R151). -/
def coilSwitched (l : LaneNo) (reason : CutReason) (s : State) : Lane :=
  ((s.lane l).cutAt (cutPosition s l)).switchedAtCut (reason == .endCut) s.recipe

theorem coilFollowed_lane (l : LaneNo) (reason : CutReason) (s : State) : (coilFollowed l reason s).lane l =
    if (reason == .endCut) = true then { coilSwitched l reason s with state := .idle }
    else { coilSwitched l reason s with plan := nextCoil s.recipe (coilSwitched l reason s) } := by
  have hswitch := laneSwitch_frame (reason == .endCut) l (coilTaken l reason s)
  have hrecipe : (laneSwitch (reason == .endCut) l (coilTaken l reason s)).recipe = s.recipe :=
    (congrArg State.recipe hswitch :)
  have hlane : (laneSwitch (reason == .endCut) l (coilTaken l reason s)).lane l = coilSwitched l reason s := by
    rw [laneSwitch_lane, coilTaken_lane, if_pos rfl]; rfl
  rw [coilFollowed, afterCoilCut_lane, hrecipe, hlane]

theorem coilFollowed_lane_ne (h : m ≠ l) (reason : CutReason) (s : State) : (coilFollowed l reason s).lane m = s.lane m := by
  rw [coilFollowed, afterCoilCut_lane_ne _ h, laneSwitch_lane_ne _ h, coilTaken_lane, if_neg h]

/-- The notices of an accepted coil's cut before the deferred cuts join (R109, R146). -/
theorem coilFollowed_notices (l : LaneNo) (reason : CutReason) (s : State) :
    Unraised .cutDue s (coilFollowed l reason s) ∧ Shown .package l (coilFollowed l reason s) ∧
      ((s.lane l).pendingSlot ≠ none → Shown .recipe l (coilFollowed l reason s)) ∧
      ((coilSwitched l reason s).trim ≠ (s.lane l).trim → Shown .trim l (coilFollowed l reason s)) ∧
      ((reason == .endCut) = true → Shown .laneState l (coilFollowed l reason s)) := by
  obtain ⟨-, hquiet, hpackage⟩ := coilTaken_notices l reason s
  obtain ⟨hheard, hquiet', hrecipe, htrim⟩ := laneSwitch_notices (reason == .endCut) l (coilTaken l reason s)
  obtain ⟨hheard', hquiet'', hstate⟩ :=
    afterCoilCut_notices (reason == .endCut) l (laneSwitch (reason == .endCut) l (coilTaken l reason s))
  have htaken : (coilTaken l reason s).lane l = (s.lane l).cutAt (cutPosition s l) :=
    (coilTaken_lane l l reason s).trans (if_pos rfl)
  rw [laneSwitch_lane, htaken] at htrim
  rw [htaken] at hrecipe
  exact ⟨(hquiet.trans hquiet').trans hquiet'', (hpackage.heard hheard).heard hheard', fun h => (hrecipe h).heard hheard',
    fun h => (htrim h).heard hheard', hstate⟩

theorem coilFollowed_deferred (l : LaneNo) (reason : CutReason) (s : State) :
    (coilFollowed l reason s).cuts.deferred = s.cuts.deferred := by
  rw [(coilFollowed_taken l reason s).1, coilTaken_cuts]

theorem coilFollowed_list (l : LaneNo) (reason : CutReason) (s : State) :
    (coilFollowed l reason s).cuts.list = s.cuts.list.eraseP (isRequestedCoil l) := by
  rw [(coilFollowed_taken l reason s).1, coilTaken_cuts]

/-- The lane of a coil after its cut and its switch keeps its state and its plan, and begins at the cut. -/
theorem coilSwitched_kept (l : LaneNo) (reason : CutReason) (s : State) :
    (coilSwitched l reason s).state = (s.lane l).state ∧ (coilSwitched l reason s).plan = (s.lane l).plan ∧
      (coilSwitched l reason s).coilStart = cutPosition s l := by
  unfold coilSwitched Lane.switchedAtCut
  split
  · exact ⟨rfl, rfl, rfl⟩
  · split
    · exact ⟨rfl, rfl, rfl⟩
    · refine ⟨restartedUnder_state _ _ _, ?_, ?_⟩
      · exact restartedUnder_plan _ _ _
      · exact restartedUnder_coilStart _ _ _

/-! ### The service -/

theorem cutName_none {b : Byte} (h : 8 ≤ b.toNat) (hb : b ≠ 0x80) : cutName b = none := by
  rw [cutName, if_neg hb, laneNo_none h]; rfl

theorem cutName_ofNat (l : LaneNo) : cutName (BitVec.ofNat 8 l.val) = some (.lane l) := by
  have hne : BitVec.ofNat 8 l.val ≠ 0x80 := by revert l; decide
  rw [cutName, if_neg hne, laneNo_ofNat]; rfl

theorem serveCutDone_range {b : Byte} (h : cutName b = none) (s : State) : serveCutDone [b] s = refuse .range s := by
  unfold serveCutDone
  rw [show byteAt [b] 0 = b from rfl, h]

theorem serveCutDone_notDue {b : Byte} {c : CutName} (h : cutName b = some c)
    (hnone : ∀ e ∈ s.cuts.list, isRequestedFor c e = false) : serveCutDone [b] s = refuse .notDue s := by
  have hfind : s.cuts.list.find? (isRequestedFor c) = none :=
    List.find?_eq_none.2 fun e he => Bool.eq_false_iff.1 (hnone e he)
  unfold serveCutDone
  rw [show byteAt [b] 0 = b from rfl, h]
  dsimp only
  rw [hfind]

theorem serveCutDone_found {b : Byte} {c : CutName} {e : CutEntry} (h : cutName b = some c)
    (hfind : s.cuts.list.find? (isRequestedFor c) = some e) : serveCutDone [b] s = accept (acceptCut e.what s) := by
  unfold serveCutDone
  rw [show byteAt [b] 0 = b from rfl, h]
  dsimp only
  rw [hfind]

/-! ### The cut accepted -/

/-- A deferred PANEL cut is no lane's END cut. -/
theorem isEndOf_of_panel {w : CutWhat} (h : w.isCoil = false) (m : LaneNo) : w.isEndOf m = false := by
  cases w with
  | coil l reason => exact absurd h (by simp [CutWhat.isCoil])
  | panel lanes => rfl

theorem acceptCoil_frame (l : LaneNo) (reason : CutReason) (s : State) :
    { acceptCoil l reason s with
      lanes := s.lanes, marks := s.marks, cuts := s.cuts, ports := s.ports, freeTick := s.freeTick } = s := by
  have hjoin := (PlansOnly.joinDeferred (coilFollowed l reason s)).frame
  have hframe := coilFollowed_frame l reason s
  calc { acceptCoil l reason s with
        lanes := s.lanes, marks := s.marks, cuts := s.cuts, ports := s.ports, freeTick := s.freeTick }
    _ = { ({ joinDeferred (coilFollowed l reason s) with
            lanes := (coilFollowed l reason s).lanes, cuts := (coilFollowed l reason s).cuts
            ports := (coilFollowed l reason s).ports, freeTick := (coilFollowed l reason s).freeTick } : State) with
          lanes := s.lanes, marks := s.marks, cuts := s.cuts, ports := s.ports, freeTick := s.freeTick } := rfl
    _ = { ({ coilFollowed l reason s with
            lanes := s.lanes, marks := s.marks, cuts := s.cuts, ports := s.ports } : State) with
          freeTick := s.freeTick } := by rw [hjoin]
    _ = s := by rw [hframe]

theorem acceptCoil_markList (l m : LaneNo) (reason : CutReason) (s : State) : (acceptCoil l reason s).markList m =
    if m = l then marksStay (reason == .endCut) (cutPosition s l) (s.markList l) else s.markList m := by
  have hmarks : (acceptCoil l reason s).marks = (coilFollowed l reason s).marks :=
    (congrArg State.marks (PlansOnly.joinDeferred (coilFollowed l reason s)).frame :)
  have hlist : (acceptCoil l reason s).markList m = (coilFollowed l reason s).markList m :=
    congrArg (fun v : MarkStore => v.lists[m]) hmarks
  rw [hlist, (coilFollowed_taken l reason s).2, coilTaken_markList]

theorem acceptCoil_queue (l : LaneNo) (reason : CutReason) (s : State) :
    (acceptCoil l reason s).cuts.queue = s.cuts.queue ++ [coilPackage l reason s] ∧
      (acceptCoil l reason s).cuts.counter = nextNumber s.cuts.counter := by
  have hjoin := PlansOnly.joinDeferred (coilFollowed l reason s)
  rw [acceptCoil_eq, hjoin.queue, hjoin.counter, (coilFollowed_taken l reason s).1, coilTaken_cuts]
  exact ⟨rfl, rfl⟩

/-- A PANEL cut that waited for the last COIL entry joins the list (R142, R143). -/
theorem acceptCoil_panelJoins {d : DeferredCut} (hdeferred : s.cuts.deferred = [d])
    (hleft : s.cuts.list.eraseP (isRequestedCoil l) = []) :
    (acceptCoil l reason s).cuts.deferred = [] ∧
      (acceptCoil l reason s).cuts.list = [d.joined (s.cuts.queue.length + 1)] ∧
      (s.cuts.queue.length + 1 < 8 → ∀ v, ((acceptCoil l reason s).port v).notices.has .cutDue = true ∧
        ((acceptCoil l reason s).port v).notices.lanesFor .cutDue =
          (s.port v).notices.lanesFor .cutDue ||| d.what.lanes) := by
  have hcuts : (coilFollowed l reason s).cuts =
      { list := [], deferred := [d], queue := s.cuts.queue ++ [coilPackage l reason s], counter := nextNumber s.cuts.counter } := by
    rw [(coilFollowed_taken l reason s).1, coilTaken_cuts, ← hdeferred, ← hleft]
  have hquiet := (coilFollowed_notices l reason s).1
  have hone : acceptCoil l reason s =
      joinDeferredCut d ((coilFollowed l reason s).modCuts fun u => { u with deferred := [] }) := by
    rw [acceptCoil_eq, joinDeferred_eq, hcuts]; rfl
  rw [hone]
  generalize coilFollowed l reason s = t at hcuts hquiet
  have hcuts' : (t.modCuts fun u => { u with deferred := [] }).cuts =
      { list := [], deferred := [], queue := s.cuts.queue ++ [coilPackage l reason s], counter := nextNumber s.cuts.counter } :=
    congrArg (fun u : CutUnit => { u with deferred := [] }) hcuts
  have hplaces : (t.modCuts fun u => { u with deferred := [] }).cuts.queue.length +
      (t.modCuts fun u => { u with deferred := [] }).cuts.requested = s.cuts.queue.length + 1 := by
    rw [hcuts']
    exact List.length_append
  have hother : (t.modCuts fun u => { u with deferred := [] }).cuts.holdsOther d.what = false := by
    rw [hcuts']; rfl
  have hports : (t.modCuts fun u => { u with deferred := [] }).ports = t.ports := rfl
  generalize (t.modCuts fun u => { u with deferred := [] }) = v at hcuts' hplaces hother hports
  rw [joinDeferredCut_joined hother, hplaces, hcuts']
  refine ⟨rfl, rfl, fun hfree q => ?_⟩
  obtain ⟨w, hw, hraise⟩ := joinCut_cutDue (s := v) (w := d.what) (due := d.duePos) (late := d.late) (by rw [hplaces]; exact hfree)
  have hjoined : ∀ q, (joinDeferredCut d v).port q = (joinCut d.what d.duePos d.late v).port q := fun q => by
    rw [State.port, (joinDeferredCut_joins hother).2.1, State.port]
  have hbefore : w.port q = t.port q := by rw [State.port, hw, hports, State.port]
  rw [hjoined, hraise, State.raise_port, hbefore]
  refine ⟨?_, ?_⟩
  · rw [Port.notify, NoticeSet.has_add, decide_eq_true rfl, Bool.or_true]
  · rw [Port.notify, NoticeSet.lanesFor_add, if_pos rfl, hquiet]

/-- The lane of an accepted coil's cut, its plan apart (R109, R146). -/
theorem acceptCoil_lane (l : LaneNo) (reason : CutReason) (s : State) : (acceptCoil l reason s).lane l =
    { coilSwitched l reason s with
      state := if (reason == .endCut) = true then .idle else (s.lane l).state
      plan := ((acceptCoil l reason s).lane l).plan } := by
  have hlane := (PlansOnly.joinDeferred (coilFollowed l reason s)).lane l
  obtain ⟨hstate, -, -⟩ := coilSwitched_kept l reason s
  rw [coilFollowed_lane, ← acceptCoil_eq] at hlane
  by_cases hend : (reason == .endCut) = true
  · rw [if_pos hend] at hlane ⊢
    exact hlane
  · rw [if_neg hend] at hlane ⊢
    rw [← hstate]
    exact hlane

/-- Settles O49: the refusals by the entries of the name; the acceptance by its steps, the lane's cut, its switch, what
follows, and the deferred cuts (R145 to R153). -/
theorem cutDoneAcceptsACoil : Obligations.CutDoneAcceptsACoil := by
  intro s p b hr
  refine ⟨fun h8 hne => ?range, fun h80 hheld => ?noPanel, fun l hl => ?coil⟩
  case range => rw [exec_cutDone_ready b hr, serveCutDone_range (cutName_none h8 hne)]; rfl
  case noPanel =>
    subst h80
    have hnone : ∀ e ∈ s.cuts.list, isRequestedFor .panel e = false := fun e he => by
      cases hcoil : e.what.isCoil with
      | true => simp [isRequestedFor, isRequestedPanel, hcoil]
      | false => simp [isRequestedFor, isRequestedPanel, CutEntry.isRequested, hheld e he hcoil]
    rw [exec_cutDone_ready _ hr, serveCutDone_notDue (c := .panel) rfl hnone]
    rfl
  case coil =>
    subst hl
    intro mine
    refine ⟨fun hnone => ?notDue, fun e reason hfind hwhat => ?accepted⟩
    case notDue =>
      rw [exec_cutDone_ready _ hr, serveCutDone_notDue (cutName_ofNat l) hnone]
      rfl
    case accepted =>
      intro x r last cut length out stay count kept switched
      have hend : (reason == .endCut) = true ↔ last := beq_iff_eq
      have hout : (laneCut (reason == .endCut) s l).out = out := by
        show marksOut (reason == .endCut) cut (s.markList l) = if last then _ else _
        by_cases h : last
        · rw [if_pos h, hend.2 h]; rfl
        · rw [if_neg h, Bool.eq_false_iff.2 (mt hend.1 h), marksOut_eq_goneOut]
      have hlength : (laneCut (reason == .endCut) s l).lengthUm = length := by
        show (if (reason == .endCut) = true then max x.um cut else cut) - x.coilStart = length
        rw [if_congr hend rfl rfl]; rfl
      have hstay : marksStay (reason == .endCut) cut (s.markList l) = stay := by
        show _ = if last then _ else _
        by_cases h : last
        · rw [if_pos h, hend.2 h]; rfl
        · rw [if_neg h, Bool.eq_false_iff.2 (mt hend.1 h), marksStay_eq_leftIn]
      have hswitched : coilSwitched l reason s = switched := by
        show (x.cutAt cut).switchedAtCut (reason == .endCut) s.recipe = switched
        have hs : switched = match x.pendingSlot with
          | none => kept
          | some i => if last then { kept with slot := i, limitStrike := false } else kept.restartedUnder (s.recipe i) i := rfl
        cases hp : x.pendingSlot with
        | none =>
          rw [hp] at hs
          exact (switchedAtCut_none (x := x.cutAt cut) _ _ hp).trans hs.symm
        | some i =>
          rw [hp] at hs
          refine (switchedAtCut_some (x := x.cutAt cut) _ _ hp).trans (Eq.trans ?_ hs.symm)
          exact if_congr hend rfl rfl
      have hframe := acceptCoil_frame l reason s
      obtain ⟨hqueue, hcounter⟩ := acceptCoil_queue l reason s
      obtain ⟨-, hpackage, hrecipe, htrim, hstate⟩ := coilFollowed_notices l reason s
      have hheard : Heard (coilFollowed l reason s) (acceptCoil l reason s) := (PlansOnly.joinDeferred _).heard
      have hlane := acceptCoil_lane l reason s
      have hpackages := coilPackage_eq (s := s) (l := l) hout hlength
      obtain ⟨-, hplan, hstart⟩ := coilSwitched_kept l reason s
      have hcoil : (∀ d ∈ s.cuts.deferred, d.what.isCoil = false) → ∀ m,
          (acceptCoil l reason s).lane m = (coilFollowed l reason s).lane m := fun hpanels m => by
        rw [acceptCoil_eq]
        refine joinDeferred_lane fun d hd => ?_
        rw [coilFollowed_deferred] at hd
        exact isEndOf_of_panel (hpanels d hd) m
      rw [hpackages] at hqueue
      rw [hswitched] at hlane htrim
      refine ⟨acceptCoil l reason s, ?_, hqueue, hcounter, (acceptCoil_markList l l reason s).trans ((if_pos rfl).trans hstay),
        fun m hm => (acceptCoil_markList l m reason s).trans (if_neg hm), ?_, fun hpanels => ⟨fun h => ?_, fun h => ?_, fun m hm => ?_, ?_⟩,
        fun d hd _ hleft => acceptCoil_panelJoins hd hleft, fun v => ⟨((hpackage.heard hheard) v).1, ((hpackage.heard hheard) v).2,
          fun h => (hrecipe h).heard hheard v, fun h => (htrim ?_).heard hheard v, fun h => (hstate (hend.2 h)).heard hheard v⟩,
        (congrArg State.positions hframe :), (congrArg State.cals hframe :), (congrArg State.recipes hframe :),
        (congrArg State.line hframe :), (congrArg State.panel hframe :), (congrArg State.rows hframe :),
        (congrArg State.stops hframe :), (congrArg State.forcing hframe :), (congrArg State.inputs hframe :)⟩
      · rw [exec_cutDone_ready _ hr, serveCutDone_found (cutName_ofNat l) hfind, hwhat]
        rfl
      · rw [if_congr hend rfl rfl] at hlane
        exact hlane
      · rw [hcoil hpanels l, coilFollowed_lane, if_pos (hend.2 h)]
        exact hplan
      · rw [hcoil hpanels l, coilFollowed_lane, if_neg (mt hend.1 h), hswitched, nextCoil]
        rw [hswitched] at hstart
        exact congrArg (fun n => ({ state := .watching, planPos := n + (s.recipe switched.slot).coilM * 1000000
                                    reason := .normal } : CoilPlan)) hstart
      · exact (hcoil hpanels m).trans (coilFollowed_lane_ne hm reason s)
      · intro hstays
        have hcuts : (acceptCoil l reason s).cuts = (coilFollowed l reason s).cuts := by
          rw [acceptCoil_eq]
          obtain hnone | hleft := hstays
          · exact joinDeferred_nil (by rw [coilFollowed_deferred]; exact hnone)
          · exact joinDeferred_panels (by rw [coilFollowed_deferred]; exact hpanels) (by rw [coilFollowed_list]; exact hleft)
        rw [hcuts, coilFollowed_list, coilFollowed_deferred]
        exact ⟨rfl, rfl⟩
      · rw [hlane] at h
        exact h

end Sys2Proof.Machine
end


section
/-! PROOFS. The cut of a panel's lanes, the line's switch and the panel that follows (08_cuts_and_packages.md R146 to
R152; 07_knotting_schedule.md R115, R117; 06_recipes_and_patterns.md R110). -/

namespace Sys2Proof.Machine

variable {s t u : State} {l m : LaneNo} {lanes : LaneSet}

/-! ### The cut of every lane of a panel -/

/-- The cut position of a lane reads its own record and the line. -/
theorem cutPosition_cutLane (h : m ≠ l) (isEnd : Bool) (s : State) :
    cutPosition (cutLane isEnd l s) m = cutPosition s m := by
  have hlane : (cutLane isEnd l s).lane m = s.lane m := (cutLane_lane isEnd l m s).trans (if_neg h)
  rw [cutPosition, State.cutterCoord, hlane]
  rfl

theorem cutLanes_cons (l : LaneNo) (ls : List LaneNo) (s : State) :
    forLanes (l :: ls) (cutLane false) s = forLanes ls (cutLane false) (cutLane false l s) := rfl

/-- Each lane of the panel is cut at its own cut position (R146, R147). -/
theorem cutLanes_lane {ls : List LaneNo} (h : ls.Nodup) (m : LaneNo) (s : State) :
    (forLanes ls (cutLane false) s).lane m = if m ∈ ls then (s.lane m).cutAt (cutPosition s m) else s.lane m := by
  induction ls generalizing s with
  | nil => simp [forLanes]
  | cons l ls ih =>
    obtain ⟨hl, hls⟩ := List.nodup_cons.1 h
    rw [cutLanes_cons, ih hls, cutLane_lane]
    by_cases hm : m = l
    · subst hm; simp [hl]
    · rw [cutPosition_cutLane hm, if_neg hm]
      simp [hm]

theorem cutLanes_markList {ls : List LaneNo} (h : ls.Nodup) (m : LaneNo) (s : State) :
    (forLanes ls (cutLane false) s).markList m =
      if m ∈ ls then marksStay false (cutPosition s m) (s.markList m) else s.markList m := by
  induction ls generalizing s with
  | nil => simp [forLanes]
  | cons l ls ih =>
    obtain ⟨hl, hls⟩ := List.nodup_cons.1 h
    rw [cutLanes_cons, ih hls, cutLane_markList]
    by_cases hm : m = l
    · subst hm; simp [hl]
    · rw [cutPosition_cutLane hm, if_neg hm]
      simp [hm]

theorem cutLanes_frame (ls : List LaneNo) (s : State) :
    { forLanes ls (cutLane false) s with lanes := s.lanes, marks := s.marks } = s :=
  forLanes_keeps (fun t => { t with lanes := s.lanes, marks := s.marks }) (cutLane false)
    (fun l t => (congrArg (fun v : State => { v with lanes := s.lanes, marks := s.marks }) (cutLane_frame false l t) :)) ls s

theorem cutLanes_nextMade (ls : List LaneNo) (s : State) :
    (forLanes ls (cutLane false) s).marks.nextMade = s.marks.nextMade :=
  forLanes_keeps (fun t => t.marks.nextMade) (cutLane false) (cutLane_nextMade false) ls s

/-! ### The package of a panel -/

/-- The package of a panel's cut (R148 to R151). -/
def panelPackage (lanes : LaneSet) (s : State) : Package :=
  packageOf s .panel none s.line.lineSlot (some (rowsClosed s.panel))
    (panelFlags s.lineRecipe (decide (0 < s.panel.rowsSkipped)) ((lanesOf lanes).map (laneCut false s)))
    ((lanesOf lanes).map (laneCut false s))

/-- The marks that go out of a lane at a panel's cut (R88, R89). -/
def panelOut (s : State) (l : LaneNo) : List Mark := goneOut (cutPosition s l) (s.markList l)

theorem laneCut_out (s : State) (l : LaneNo) : (laneCut false s l).out = panelOut s l := marksOut_eq_goneOut _ _

/-- The package of a panel, from the marks gone out of its lanes (R92, R148 to R151). -/
theorem panelPackage_eq (lanes : LaneSet) (s : State) : panelPackage lanes s =
    { number := s.cuts.counter, kind := .panel, lane := none, slot := s.line.lineSlot
      lengths := (lanesOf lanes).map fun l => (cutPosition s l - (s.lane l).coilStart) / 1000
      rows := some (s.panel.rowsKnotted + s.panel.rowsTimedOut + s.panel.rowsSkipped)
      flags :=
        { short := false, endCut := false, overlength := false
          spliceExcess := (lanesOf lanes).any fun l => decide (s.lineRecipe.maxSplices < countKind (panelOut s l) .splice)
          marksIncomplete := (lanesOf lanes).any fun l => (s.lane l).marksLost
          marksTruncated := decide (12 < ((lanesOf lanes).flatMap (panelOut s)).length)
          trimLimited := (lanesOf lanes).any fun l => (s.lane l).trimLimited
          rowsSkipped := decide (0 < s.panel.rowsSkipped) }
      totals := totalsOf ((lanesOf lanes).flatMap (panelOut s))
      markList := ((lanesOf lanes).flatMap fun l => (panelOut s l).map (packageMark (s.lane l).coilStart)).take 12 } := by
  have hall : allOut ((lanesOf lanes).map (laneCut false s)) = (lanesOf lanes).flatMap (panelOut s) := by
    rw [allOut, List.flatMap_map]
    simp only [laneCut_out]
  have hmarks : allPackageMarks ((lanesOf lanes).map (laneCut false s)) =
      (lanesOf lanes).flatMap fun l => (panelOut s l).map (packageMark (s.lane l).coilStart) := by
    rw [allPackageMarks, List.flatMap_map]
    simp only [laneCut_out]
    rfl
  have hsplice : spliceExcess s.lineRecipe ((lanesOf lanes).map (laneCut false s)) =
      (lanesOf lanes).any fun l => decide (s.lineRecipe.maxSplices < countKind (panelOut s l) .splice) := by
    rw [spliceExcess, List.any_map]
    simp only [Function.comp_def, laneCut_out]
  rw [panelPackage, packageOf, panelFlags, hall, hmarks, hsplice, List.map_map, List.any_map, List.any_map, markListMax]
  rfl

/-! ### The cut taken, and the line's switch -/

/-- The state of an accepted panel's cut before its switch: the lanes cut, the entry gone, the package queued (R146). -/
def panelTaken (lanes : LaneSet) (s : State) : State :=
  queuePackage (panelPackage lanes s) lanes (removeEntry isRequestedPanel (forLanes (lanesOf lanes) (cutLane false) s))

/-- A lane after a panel's cut (R146, R151). -/
def panelCutLane (lanes : LaneSet) (s : State) (l : LaneNo) : Lane :=
  if laneIn lanes l = true then (s.lane l).cutAt (cutPosition s l) else s.lane l

theorem panelTaken_lane (lanes : LaneSet) (m : LaneNo) (s : State) : (panelTaken lanes s).lane m = panelCutLane lanes s m := by
  have h := cutLanes_lane (nodup_lanesOf lanes) m s
  simp only [mem_lanesOf_iff] at h
  exact h

theorem panelTaken_markList (lanes : LaneSet) (m : LaneNo) (s : State) : (panelTaken lanes s).markList m =
    if laneIn lanes m = true then leftIn (cutPosition s m) (s.markList m) else s.markList m := by
  have h := cutLanes_markList (nodup_lanesOf lanes) m s
  simp only [mem_lanesOf_iff, marksStay_eq_leftIn] at h
  exact h

theorem panelTaken_nextMade (lanes : LaneSet) (s : State) : (panelTaken lanes s).marks.nextMade = s.marks.nextMade :=
  cutLanes_nextMade (lanesOf lanes) s

theorem panelTaken_frame (lanes : LaneSet) (s : State) :
    { panelTaken lanes s with lanes := s.lanes, marks := s.marks, cuts := s.cuts, ports := s.ports } = s :=
  (congrArg (fun v : State => { v with cuts := s.cuts, ports := s.ports }) (cutLanes_frame (lanesOf lanes) s) :)

theorem panelTaken_cuts (lanes : LaneSet) (s : State) : (panelTaken lanes s).cuts =
    { s.cuts with
      list := s.cuts.list.eraseP isRequestedPanel, queue := s.cuts.queue ++ [panelPackage lanes s]
      counter := nextNumber s.cuts.counter } :=
  congrArg (fun u : CutUnit => { u with
    list := u.list.eraseP isRequestedPanel, queue := u.queue ++ [panelPackage lanes s], counter := nextNumber u.counter })
    (congrArg State.cuts (cutLanes_frame (lanesOf lanes) s) :)

theorem panelTaken_package (lanes : LaneSet) (s : State) : Raised .package (panelTaken lanes s) ∧
    ∀ l, laneIn lanes l = true → Shown .package l (panelTaken lanes s) :=
  ⟨raised_raise _ _ _, fun _ hl => shown_raise hl _⟩

/-- The state of an accepted panel's cut after its switch (R110). -/
def panelSwitched (lanes : LaneSet) (s : State) : State := pendingLineSwitch (panelTaken lanes s)

/-- A lane after a pending switch of the line (R110, R111). -/
def Lane.lineSwitched (pending : Option SlotNo) (recipe : SlotNo → Recipe) (x : Lane) : Lane :=
  match pending with
  | none => x
  | some i => if x.state = .idle then x else x.restartedUnder (recipe i) i

theorem pendingLineSwitch_none (h : s.line.pendingLineSlot = none) : pendingLineSwitch s = s := by
  unfold pendingLineSwitch
  rw [h]

theorem pendingLineSwitch_some {i : SlotNo} (h : s.line.pendingLineSlot = some i) : pendingLineSwitch s = lineSwitch i s := by
  unfold pendingLineSwitch
  rw [h]

theorem pendingLineSwitch_lane (l : LaneNo) (s : State) :
    (pendingLineSwitch s).lane l = (s.lane l).lineSwitched s.line.pendingLineSlot s.recipe := by
  cases h : s.line.pendingLineSlot with
  | none => rw [pendingLineSwitch_none h]; rfl
  | some i =>
    rw [pendingLineSwitch_some h, lineSwitch_lane]
    exact ite_not _ _ _

theorem pendingLineSwitch_line (s : State) : (pendingLineSwitch s).line =
    { s.line with lineSlot := s.line.pendingLineSlot.getD s.line.lineSlot, pendingLineSlot := none } := by
  cases h : s.line.pendingLineSlot with
  | none =>
    rw [pendingLineSwitch_none h]
    exact congrArg (fun o => ({ s.line with pendingLineSlot := o } : Line)) h
  | some i => rw [pendingLineSwitch_some h, lineSwitch_line]; rfl

theorem pendingLineSwitch_frame (s : State) :
    { pendingLineSwitch s with lanes := s.lanes, line := s.line, ports := s.ports } = s := by
  cases h : s.line.pendingLineSlot with
  | none => rw [pendingLineSwitch_none h]
  | some i => rw [pendingLineSwitch_some h]; exact lineSwitch_frame i s

/-- The notices of a pending switch of the line (R70, R110). -/
theorem pendingLineSwitch_notices (s : State) : Heard s (pendingLineSwitch s) ∧
    (s.line.pendingLineSlot ≠ none → Raised .recipe (pendingLineSwitch s) ∧
      ∀ l, (s.lane l).state ≠ .idle → Shown .recipe l (pendingLineSwitch s)) ∧
    ∀ l, ((pendingLineSwitch s).lane l).trim ≠ (s.lane l).trim → Shown .trim l (pendingLineSwitch s) := by
  cases h : s.line.pendingLineSlot with
  | none =>
    rw [pendingLineSwitch_none h]
    exact ⟨.refl s, fun hn => absurd rfl hn, fun l ht => absurd rfl ht⟩
  | some i =>
    rw [pendingLineSwitch_some h]
    exact ⟨heard_lineSwitch i s, fun _ => lineSwitch_recipeNotice i s, fun l => lineSwitch_trim⟩

/-! ### The panel that follows -/

theorem heard_feedCheck (r : Nat) (s : State) : Heard s (feedCheck r s) := by
  by_cases hr : r = 0
  · subst hr; exact .refl s
  have hports : (feedCounted r s).ports = s.ports := by
    have hcounted : (feedCounted r s).ports = (feedMarked r s).ports := (congrArg State.ports (feedCounted_frame r s) :)
    rw [hcounted, feedMarked, (MarksOnly.handMarks _ s).ports]
  rw [feedCheck_eq hr]
  split
  · exact .of_ports hports
  · exact (Heard.of_ports hports).trans (heard_requestStop _ _ _)

theorem heard_rowCaptured (s : State) : Heard s (rowCaptured s) :=
  (heard_feedCheck s.panel.nextRow s).trans (Heard.of_ports (s := feedCheck s.panel.nextRow s)
    (congrArg State.ports (captureLanes_frame (feedCheck s.panel.nextRow s)) :))

theorem heard_advanceRow (s : State) : Heard s (advanceRow s) := .of_ports rfl

theorem heard_rowJoins (r : Nat) (captured : List Nat) (fails : LaneSet) (s : State) :
    Heard s (rowJoins r captured fails s) := (Heard.of_ports rfl).trans (heard_raise _ _ _)

theorem heard_skipShown (ms : List Mark) (r : Nat) (fails : LaneSet) (t : State) : Heard t (skipShown ms r fails t) :=
  ((Heard.of_ports (s := t) (t := t.modPanel fun p => { p with lastClosedRow := some r, rowsSkipped := p.rowsSkipped + 1 })
    rfl).trans (heard_requestStop .rowOverrun fails _)).trans (heard_raise _ _ _)

theorem heard_rowFell (s : State) : Heard s (rowFell s) := by
  by_cases h : s.rows.length < 4
  · rw [rowFell_joins h]
    exact ((heard_rowCaptured s).trans (heard_rowJoins _ _ _ _)).trans (heard_advanceRow _)
  · rw [rowFell_skipped (not_lt.1 h), rowSkipped_eq]
    exact (((heard_rowCaptured s).trans (Heard.of_ports (MarksOnly.handMarks _ (rowCaptured s)).ports)).trans
      (heard_skipShown _ _ _ _)).trans (heard_advanceRow _)

theorem openPanel_rowFell (h : s.lineRecipe.leadInMm = 0) : openPanel s = rowFell (panelOpened s) := by
  rw [openPanel_eq, rowFallsDueIfMet, if_pos ((rowDueMet_panelOpened s).2 h), rowFallsDue_rowFell]

theorem heard_openPanel (s : State) : Heard s (openPanel s) := by
  obtain h | h := Nat.eq_zero_or_pos s.lineRecipe.leadInMm
  · rw [openPanel_rowFell h]
    exact (Heard.of_ports (s := s) (t := panelOpened s) rfl).trans (heard_rowFell _)
  · rw [openPanel_leadIn h]; exact .of_ports rfl

/-- What a panel's opening touches. -/
theorem openPanel_frame (s : State) :
    { openPanel s with
      lanes := s.lanes, marks := s.marks, stops := s.stops, ports := s.ports, freeTick := s.freeTick
      panel := s.panel, rows := s.rows } = s := by
  obtain h | h := Nat.eq_zero_or_pos s.lineRecipe.leadInMm
  · have hfell := rowFell_frame (panelOpened s)
    rw [openPanel_rowFell h]
    exact (congrArg (fun v : State => { v with panel := s.panel }) hfell :)
  · rw [openPanel_leadIn h]; rfl

/-- A lane at a panel's opening: captured where row 0 falls due at once (R115, R120). -/
theorem openPanel_lane (m : LaneNo) (s : State) : (openPanel s).lane m = { s.lane m with
    marksLost := ((openPanel s).lane m).marksLost
    lastRowTally := if s.lineRecipe.leadInMm = 0 ∧ m.val < s.lineRecipe.netWidth then some (s.lane m).um
      else (s.lane m).lastRowTally } := by
  obtain h | h := Nat.eq_zero_or_pos s.lineRecipe.leadInMm
  · rw [openPanel_rowFell h]
    by_cases hm : m.val < s.lineRecipe.netWidth
    · have hlane := rowFell_lane_in (s := panelOpened s) (l := m) hm
      rw [pitchRunAfter_zero rfl] at hlane
      rw [if_pos ⟨h, hm⟩]
      exact hlane
    · have hlane := rowFell_lane_out (s := panelOpened s) (l := m) (not_lt.1 hm)
      rw [if_neg fun hn => hm hn.2, hlane]
      rfl
  · rw [openPanel_leadIn h, if_neg fun hn => absurd hn.1 (Nat.pos_iff_ne_zero.1 h)]
    rfl

/-- The next panel opens (R117). -/
abbrev NextOpens (s : State) : Prop :=
  s.panel.halt = false ∧ ∀ l : LaneNo, l.val < s.lineRecipe.netWidth → (s.lane l).state.running = true

theorem closePanel_opens (h : NextOpens s) : closePanel s = openPanel s := by
  obtain ⟨hhalt, hrun⟩ := h
  have hall : (lanesOf s.netSet).all (fun l => (s.lane l).state.running) = true := (all_lanesOf_iff _ _).2 hrun
  rw [closePanel, if_neg (by rw [hhalt]; exact Bool.false_ne_true), if_pos hall]

theorem closePanel_closes (h : ¬ NextOpens s) :
    closePanel s = { s with panel := { s.panel with state := .none, halt := false } } := by
  unfold closePanel
  split
  · rfl
  · next hhalt =>
    have hfalse : s.panel.halt = false := Bool.eq_false_iff.2 hhalt
    have hall : ¬ (lanesOf s.netSet).all (fun l => (s.lane l).state.running) = true := fun hall =>
      h ⟨hfalse, (all_lanesOf_iff _ _).1 hall⟩
    rw [if_neg hall]
    exact congrArg (fun b => ({ s with panel := { s.panel with state := .none, halt := b } } : State)) hfalse

theorem heard_closePanel (s : State) : Heard s (closePanel s) := by
  by_cases h : NextOpens s
  · rw [closePanel_opens h]; exact heard_openPanel s
  · rw [closePanel_closes h]; exact .of_ports rfl

theorem closePanel_frame (s : State) :
    { closePanel s with
      lanes := s.lanes, marks := s.marks, stops := s.stops, ports := s.ports, freeTick := s.freeTick
      panel := s.panel, rows := s.rows } = s := by
  by_cases h : NextOpens s
  · rw [closePanel_opens h]; exact openPanel_frame s
  · rw [closePanel_closes h]

/-- A lane at the panel's close and the next one's opening: captured where row 0 falls due at once (R117, R120). -/
theorem closePanel_lane (m : LaneNo) (s : State) : (closePanel s).lane m = { s.lane m with
    marksLost := ((closePanel s).lane m).marksLost, lastRowTally := ((closePanel s).lane m).lastRowTally } := by
  by_cases h : NextOpens s
  · rw [closePanel_opens h, openPanel_lane]
  · rw [closePanel_closes h]; rfl

theorem closePanel_captured (h : NextOpens s) (hlead : s.lineRecipe.leadInMm = 0) (hm : m.val < s.lineRecipe.netWidth) :
    ((closePanel s).lane m).lastRowTally = some (s.lane m).um := by
  rw [closePanel_opens h, openPanel_lane, if_pos ⟨hlead, hm⟩]

theorem closePanel_uncaptured (h : ¬ NextOpens s ∨ s.lineRecipe.leadInMm ≠ 0 ∨ s.lineRecipe.netWidth ≤ m.val) :
    ((closePanel s).lane m).lastRowTally = (s.lane m).lastRowTally := by
  by_cases ho : NextOpens s
  · rw [closePanel_opens ho, openPanel_lane, if_neg]
    rintro ⟨hlead, hm⟩
    exact h.elim (fun hn => hn ho) fun hn => hn.elim (fun hl => hl hlead) fun hw => absurd hm (not_lt.2 hw)
  · rw [closePanel_closes ho]; rfl

/-- With an empty row list the next panel's opening hands no mark and asks for no stop (R115, R123). -/
theorem closePanel_quiet (h : s.rows = []) : (closePanel s).marks = s.marks ∧ (closePanel s).stops = s.stops ∧
    ∀ m, ((closePanel s).lane m).marksLost = (s.lane m).marksLost := by
  by_cases ho : NextOpens s
  · rw [closePanel_opens ho]
    obtain hlead | hlead := Nat.eq_zero_or_pos s.lineRecipe.leadInMm
    · have hframe := firstRowDue_frame s
      rw [openPanel_atOnce hlead h]
      refine ⟨(congrArg State.marks hframe :), (congrArg State.stops hframe :), fun m => ?_⟩
      rw [firstRowDue_lane]
      split <;> rfl
    · rw [openPanel_leadIn hlead]
      exact ⟨rfl, rfl, fun _ => rfl⟩
  · rw [closePanel_closes ho]
    exact ⟨rfl, rfl, fun _ => rfl⟩

end Sys2Proof.Machine
end


section
/-! PROOFS. CUT_DONE at a panel (08_cuts_and_packages.md R145 to R152; 07_knotting_schedule.md R117). -/

namespace Sys2Proof.Machine

variable {s t u : State} {l m : LaneNo} {p : PortNo} {lanes : LaneSet}

/-! ### The state after the switch -/

theorem panelSwitched_frame (lanes : LaneSet) (s : State) :
    { panelSwitched lanes s with
      lanes := s.lanes, marks := s.marks, cuts := s.cuts, line := s.line, ports := s.ports } = s := by
  have hswitch := pendingLineSwitch_frame (panelTaken lanes s)
  have htaken := panelTaken_frame lanes s
  calc { panelSwitched lanes s with
        lanes := s.lanes, marks := s.marks, cuts := s.cuts, line := s.line, ports := s.ports }
    _ = { ({ pendingLineSwitch (panelTaken lanes s) with
            lanes := (panelTaken lanes s).lanes, line := (panelTaken lanes s).line
            ports := (panelTaken lanes s).ports } : State) with
          lanes := s.lanes, marks := s.marks, cuts := s.cuts, line := s.line, ports := s.ports } := rfl
    _ = { ({ panelTaken lanes s with
            lanes := s.lanes, marks := s.marks, cuts := s.cuts, ports := s.ports } : State) with
          line := s.line } := by rw [hswitch]
    _ = s := by rw [htaken]

theorem panelTaken_line (lanes : LaneSet) (s : State) : (panelTaken lanes s).line = s.line :=
  (congrArg State.line (panelTaken_frame lanes s) :)

theorem panelTaken_recipe (lanes : LaneSet) (s : State) : (panelTaken lanes s).recipe = s.recipe :=
  (congrArg State.recipe (panelTaken_frame lanes s) :)

theorem panelSwitched_lane (lanes : LaneSet) (m : LaneNo) (s : State) : (panelSwitched lanes s).lane m =
    (panelCutLane lanes s m).lineSwitched s.line.pendingLineSlot s.recipe := by
  rw [panelSwitched, pendingLineSwitch_lane, panelTaken_lane, panelTaken_line, panelTaken_recipe]

theorem panelSwitched_line (lanes : LaneSet) (s : State) : (panelSwitched lanes s).line =
    { s.line with lineSlot := s.line.pendingLineSlot.getD s.line.lineSlot, pendingLineSlot := none } := by
  rw [panelSwitched, pendingLineSwitch_line, panelTaken_line]

theorem panelSwitched_lineRecipe (lanes : LaneSet) (s : State) : (panelSwitched lanes s).lineRecipe =
    s.recipe (s.line.pendingLineSlot.getD s.line.lineSlot) := by
  have hrecipe : (panelSwitched lanes s).recipe = s.recipe := (congrArg State.recipe (panelSwitched_frame lanes s) :)
  rw [State.lineRecipe, hrecipe, panelSwitched_line]

theorem panelSwitched_marks (lanes : LaneSet) (s : State) : (panelSwitched lanes s).marks = (panelTaken lanes s).marks :=
  (congrArg State.marks (pendingLineSwitch_frame (panelTaken lanes s)) :)

theorem panelSwitched_cuts (lanes : LaneSet) (s : State) : (panelSwitched lanes s).cuts =
    { s.cuts with
      list := s.cuts.list.eraseP isRequestedPanel, queue := s.cuts.queue ++ [panelPackage lanes s]
      counter := nextNumber s.cuts.counter } := by
  have hcuts : (panelSwitched lanes s).cuts = (panelTaken lanes s).cuts :=
    (congrArg State.cuts (pendingLineSwitch_frame (panelTaken lanes s)) :)
  rw [hcuts, panelTaken_cuts]

theorem lineSwitched_some (recipe : SlotNo → Recipe) (i : SlotNo) (x : Lane) :
    x.lineSwitched (some i) recipe = if x.state = .idle then x else x.restartedUnder (recipe i) i := rfl

theorem lineSwitched_kept (pending : Option SlotNo) (recipe : SlotNo → Recipe) (x : Lane) :
    (x.lineSwitched pending recipe).state = x.state ∧ (x.lineSwitched pending recipe).tally = x.tally ∧
      (x.lineSwitched pending recipe).plan = x.plan ∧ (x.lineSwitched pending recipe).lastRowTally = x.lastRowTally ∧
      (x.lineSwitched pending recipe).marksLost = x.marksLost := by
  have hrestart : ∀ r i, (x.restartedUnder r i).tally = x.tally ∧ (x.restartedUnder r i).lastRowTally = x.lastRowTally ∧
      (x.restartedUnder r i).marksLost = x.marksLost := fun r i => by
    unfold Lane.restartedUnder
    cases x.state <;> exact ⟨rfl, rfl, rfl⟩
  unfold Lane.lineSwitched
  split
  · exact ⟨rfl, rfl, rfl, rfl, rfl⟩
  · split
    · exact ⟨rfl, rfl, rfl, rfl, rfl⟩
    · obtain ⟨htally, hrow, hlost⟩ := hrestart (recipe _) _
      exact ⟨restartedUnder_state _ _ _, htally, restartedUnder_plan _ _ _, hrow, hlost⟩

theorem panelCutLane_kept (lanes : LaneSet) (s : State) (l : LaneNo) :
    (panelCutLane lanes s l).state = (s.lane l).state ∧ (panelCutLane lanes s l).tally = (s.lane l).tally ∧
      (panelCutLane lanes s l).plan = (s.lane l).plan ∧
      (panelCutLane lanes s l).lastRowTally = (s.lane l).lastRowTally ∧
      (panelCutLane lanes s l).trim = (s.lane l).trim := by
  unfold panelCutLane
  split <;> exact ⟨rfl, rfl, rfl, rfl, rfl⟩

/-- What a panel's cut and its switch leave of a lane. -/
theorem panelSwitched_kept (lanes : LaneSet) (s : State) (l : LaneNo) :
    ((panelSwitched lanes s).lane l).state = (s.lane l).state ∧ ((panelSwitched lanes s).lane l).um = (s.lane l).um ∧
      ((panelSwitched lanes s).lane l).plan = (s.lane l).plan ∧
      ((panelSwitched lanes s).lane l).lastRowTally = (s.lane l).lastRowTally ∧
      ((panelSwitched lanes s).lane l).marksLost = (panelCutLane lanes s l).marksLost := by
  obtain ⟨hstate, htally, hplan, hrow, hlost⟩ := lineSwitched_kept s.line.pendingLineSlot s.recipe (panelCutLane lanes s l)
  obtain ⟨hstate', htally', hplan', hrow', -⟩ := panelCutLane_kept lanes s l
  rw [panelSwitched_lane]
  exact ⟨hstate.trans hstate', congrArg (· / 256) (htally.trans htally'), hplan.trans hplan', hrow.trans hrow', hlost⟩

theorem running_iff (x : LaneState) : x.running = true ↔ x = .run ∨ x = .splicing ∨ x = .fault := by
  cases x <;> simp [LaneState.running]

/-- Whether the next panel opens, by the lanes and the halt at the cut (R117). -/
theorem nextOpens_panelSwitched (lanes : LaneSet) (s : State) : NextOpens (panelSwitched lanes s) ↔
    s.panel.halt = false ∧ ∀ l : LaneNo, l.val < (s.recipe (s.line.pendingLineSlot.getD s.line.lineSlot)).netWidth →
      (s.lane l).state = .run ∨ (s.lane l).state = .splicing ∨ (s.lane l).state = .fault := by
  have hpanel : (panelSwitched lanes s).panel = s.panel := (congrArg State.panel (panelSwitched_frame lanes s) :)
  rw [NextOpens, hpanel, panelSwitched_lineRecipe]
  refine and_congr_right fun _ => forall_congr' fun l => imp_congr_right fun _ => ?_
  rw [(panelSwitched_kept lanes s l).1, running_iff]

/-! ### The state before the deferred cuts join -/

/-- The state of an accepted panel's cut before the deferred cuts join (R146). -/
def panelFollowed (lanes : LaneSet) (s : State) : State := closePanel (panelSwitched lanes s)

theorem acceptPanel_eq (lanes : LaneSet) (s : State) : acceptPanel lanes s = joinDeferred (panelFollowed lanes s) := rfl

theorem panelFollowed_cuts (lanes : LaneSet) (s : State) : (panelFollowed lanes s).cuts =
    { s.cuts with
      list := s.cuts.list.eraseP isRequestedPanel, queue := s.cuts.queue ++ [panelPackage lanes s]
      counter := nextNumber s.cuts.counter } := by
  have hcuts : (panelFollowed lanes s).cuts = (panelSwitched lanes s).cuts :=
    (congrArg State.cuts (closePanel_frame (panelSwitched lanes s)) :)
  rw [hcuts, panelSwitched_cuts]

theorem panelFollowed_line (lanes : LaneSet) (s : State) : (panelFollowed lanes s).line = (panelSwitched lanes s).line :=
  (congrArg State.line (closePanel_frame (panelSwitched lanes s)) :)

/-- What an accepted panel's cut touches. -/
theorem acceptPanel_frame (lanes : LaneSet) (s : State) :
    { acceptPanel lanes s with
      lanes := s.lanes, marks := s.marks, cuts := s.cuts, line := s.line, stops := s.stops, ports := s.ports
      freeTick := s.freeTick, panel := s.panel, rows := s.rows } = s := by
  have hjoin := (PlansOnly.joinDeferred (panelFollowed lanes s)).frame
  have hclose := closePanel_frame (panelSwitched lanes s)
  have hswitch := panelSwitched_frame lanes s
  rw [acceptPanel_eq]
  generalize joinDeferred (panelFollowed lanes s) = w at hjoin ⊢
  rw [← panelFollowed] at hclose
  generalize panelFollowed lanes s = v at hjoin hclose
  generalize panelSwitched lanes s = y at hclose hswitch
  calc { w with
        lanes := s.lanes, marks := s.marks, cuts := s.cuts, line := s.line, stops := s.stops, ports := s.ports
        freeTick := s.freeTick, panel := s.panel, rows := s.rows }
    _ = { ({ w with lanes := v.lanes, cuts := v.cuts, ports := v.ports, freeTick := v.freeTick } : State) with
          lanes := s.lanes, marks := s.marks, cuts := s.cuts, line := s.line, stops := s.stops, ports := s.ports
          freeTick := s.freeTick, panel := s.panel, rows := s.rows } := rfl
    _ = { ({ v with
            lanes := y.lanes, marks := y.marks, stops := y.stops, ports := y.ports, freeTick := y.freeTick
            panel := y.panel, rows := y.rows } : State) with
          lanes := s.lanes, marks := s.marks, cuts := s.cuts, line := s.line, stops := s.stops, ports := s.ports
          freeTick := s.freeTick, panel := s.panel, rows := s.rows } := by rw [hjoin]
    _ = { ({ y with
            lanes := s.lanes, marks := s.marks, cuts := s.cuts, line := s.line, ports := s.ports } : State) with
          stops := s.stops, freeTick := s.freeTick, panel := s.panel, rows := s.rows } := by rw [hclose]
    _ = s := by rw [hswitch]

/-- The records that the deferred cuts leave as the panel's close has them. -/
theorem acceptPanel_followed (lanes : LaneSet) (s : State) :
    (acceptPanel lanes s).marks = (panelFollowed lanes s).marks ∧ (acceptPanel lanes s).line = (panelFollowed lanes s).line ∧
      (acceptPanel lanes s).stops = (panelFollowed lanes s).stops ∧
      (acceptPanel lanes s).panel = (panelFollowed lanes s).panel ∧
      (acceptPanel lanes s).rows = (panelFollowed lanes s).rows := by
  have hjoin := (PlansOnly.joinDeferred (panelFollowed lanes s)).frame
  exact ⟨(congrArg State.marks hjoin :), (congrArg State.line hjoin :), (congrArg State.stops hjoin :),
    (congrArg State.panel hjoin :), (congrArg State.rows hjoin :)⟩

/-- A lane after an accepted panel's cut (R110, R146, R151). -/
theorem acceptPanel_lane (lanes : LaneSet) (m : LaneNo) (s : State) : (acceptPanel lanes s).lane m =
    { (panelSwitched lanes s).lane m with
      plan := ((acceptPanel lanes s).lane m).plan, marksLost := ((panelFollowed lanes s).lane m).marksLost
      lastRowTally := ((panelFollowed lanes s).lane m).lastRowTally } := by
  have hjoin := (PlansOnly.joinDeferred (panelFollowed lanes s)).lane m
  have hclose := closePanel_lane m (panelSwitched lanes s)
  rw [← panelFollowed] at hclose
  rw [← acceptPanel_eq, hclose] at hjoin
  exact hjoin

theorem acceptPanel_queue (lanes : LaneSet) (s : State) :
    (acceptPanel lanes s).cuts.queue = s.cuts.queue ++ [panelPackage lanes s] ∧
      (acceptPanel lanes s).cuts.counter = nextNumber s.cuts.counter := by
  have hjoin := PlansOnly.joinDeferred (panelFollowed lanes s)
  rw [acceptPanel_eq, hjoin.queue, hjoin.counter, panelFollowed_cuts]
  exact ⟨rfl, rfl⟩

/-- The notices of an accepted panel's cut (R70, R110, R146). -/
theorem acceptPanel_notices (lanes : LaneSet) (s : State) :
    Raised .package (acceptPanel lanes s) ∧ (∀ l, laneIn lanes l = true → Shown .package l (acceptPanel lanes s)) ∧
      (s.line.pendingLineSlot ≠ none → Raised .recipe (acceptPanel lanes s) ∧
        ∀ l, (s.lane l).state ≠ .idle → Shown .recipe l (acceptPanel lanes s)) ∧
      ∀ l, ((acceptPanel lanes s).lane l).trim ≠ (s.lane l).trim → Shown .trim l (acceptPanel lanes s) := by
  have hafter : Heard (panelSwitched lanes s) (acceptPanel lanes s) :=
    (heard_closePanel (panelSwitched lanes s)).trans (PlansOnly.joinDeferred (panelFollowed lanes s)).heard
  obtain ⟨hpackage, hlanes⟩ := panelTaken_package lanes s
  obtain ⟨hheard, hrecipe, htrim⟩ := pendingLineSwitch_notices (panelTaken lanes s)
  rw [panelTaken_line] at hrecipe
  have hall : Heard (panelTaken lanes s) (acceptPanel lanes s) := Heard.trans hheard hafter
  refine ⟨hpackage.heard hall, fun l hl => (hlanes l hl).heard hall, fun hp => ⟨(hrecipe hp).1.heard hafter, fun l hl => ?_⟩,
    fun l hl => Shown.heard (htrim l fun heq => hl ?_) hafter⟩
  · refine Shown.heard ((hrecipe hp).2 l ?_) hafter
    rw [panelTaken_lane, (panelCutLane_kept lanes s l).1]
    exact hl
  · rw [panelTaken_lane, (panelCutLane_kept lanes s l).2.2.2.2] at heq
    rw [acceptPanel_lane]
    exact heq

/-! ### The deferred END cuts -/

/-- The deferred END cuts join an empty list in the order in which they fell due (R142, R143). -/
theorem acceptPanel_joins (hleft : s.cuts.list.eraseP isRequestedPanel = [])
    (hcoils : ∀ d ∈ s.cuts.deferred, d.what.isCoil = true) :
    (acceptPanel lanes s).cuts.deferred = [] ∧
      (acceptPanel lanes s).cuts.list = s.cuts.deferred.mapIdx (fun i d => d.joined (s.cuts.queue.length + 1 + i)) ∧
      (∀ e ∈ (acceptPanel lanes s).cuts.list, e.state = .requested → Raised .cutDue (acceptPanel lanes s) ∧
        ∀ l, laneIn e.what.lanes l = true → Shown .cutDue l (acceptPanel lanes s)) ∧
      ∀ l, (∃ d ∈ s.cuts.deferred, d.what.isEndOf l = true) → ((acceptPanel lanes s).lane l).plan.Ended := by
  have hcuts := panelFollowed_cuts lanes s
  have heq : acceptPanel lanes s =
      joinAll s.cuts.deferred ((panelFollowed lanes s).modCuts fun u => { u with deferred := [] }) := by
    rw [acceptPanel_eq, joinDeferred_eq, hcuts]
  have hcuts' : ((panelFollowed lanes s).modCuts fun u => { u with deferred := [] }).cuts =
      { list := [], deferred := [], queue := s.cuts.queue ++ [panelPackage lanes s], counter := nextNumber s.cuts.counter } := by
    rw [← hleft]
    exact congrArg (fun u : CutUnit => { u with deferred := [] }) hcuts
  have hplaces : ((panelFollowed lanes s).modCuts fun u => { u with deferred := [] }).cuts.queue.length +
      ((panelFollowed lanes s).modCuts fun u => { u with deferred := [] }).cuts.requested = s.cuts.queue.length + 1 := by
    rw [hcuts']
    exact List.length_append
  rw [heq]
  generalize (panelFollowed lanes s).modCuts (fun u => { u with deferred := [] }) = v at hcuts' hplaces
  have hlist : v.cuts.list = [] := congrArg CutUnit.list hcuts'
  have hnone : ∀ e ∈ v.cuts.list, e.what.isCoil = true := fun e he => absurd (hlist ▸ he) List.not_mem_nil
  have hjoined := joinAll_coils hcoils hnone
  rw [hplaces] at hjoined
  refine ⟨?_, ?_, fun e he hreq => ?_, fun l hl => joinAll_ended hcoils hnone (.inl hl)⟩
  · rw [hjoined, hcuts']
  · rw [hjoined, hlist]; rfl
  · exact (joinAll_cutDue he hreq).resolve_left fun hold => absurd (hlist ▸ hold) List.not_mem_nil

/-! ### The statement -/

/-- Settles O50: the package, the lanes and the marks by the cut of each lane; the line's switch; the panel that
follows; and the deferred END cuts (R146 to R152, R110, R117). -/
theorem cutDoneAcceptsAPanel : Obligations.CutDoneAcceptsAPanel := by
  intro s p hr e lanes hfind hwhat cut ls out gone count draw slot next opens kept switched left
  have hopens : NextOpens (panelSwitched lanes s) ↔ opens := nextOpens_panelSwitched lanes s
  have hnext : (panelSwitched lanes s).lineRecipe = next := panelSwitched_lineRecipe lanes s
  have hkept : ∀ l, panelCutLane lanes s l = kept l := fun _ => rfl
  have hswitched : ∀ l, (panelSwitched lanes s).lane l = switched l := fun l => by
    have hs : switched l = match s.line.pendingLineSlot with
      | none => kept l
      | some i => if (s.lane l).state = .idle then kept l else (kept l).restartedUnder (s.recipe i) i := rfl
    rw [panelSwitched_lane, hkept]
    cases hp : s.line.pendingLineSlot with
    | none =>
      rw [hp] at hs
      exact hs.symm
    | some i =>
      rw [hp] at hs
      refine (lineSwitched_some s.recipe i (kept l)).trans (Eq.trans (if_congr ?_ rfl rfl) hs.symm)
      rw [← hkept, (panelCutLane_kept lanes s l).1]
  have hframe := acceptPanel_frame lanes s
  obtain ⟨hmarks, hline, hstops, hpanel, hrows⟩ := acceptPanel_followed lanes s
  obtain ⟨hqueue, hcounter⟩ := acceptPanel_queue lanes s
  have hlane := fun l => acceptPanel_lane lanes l s
  obtain ⟨hpackage, hpackageLane, hrecipe, htrim⟩ := acceptPanel_notices lanes s
  have hspanel : (panelSwitched lanes s).panel = s.panel := (congrArg State.panel (panelSwitched_frame lanes s) :)
  have hsrows : (panelSwitched lanes s).rows = s.rows := (congrArg State.rows (panelSwitched_frame lanes s) :)
  have hsstops : (panelSwitched lanes s).stops = s.stops := (congrArg State.stops (panelSwitched_frame lanes s) :)
  have hsdraw : (panelSwitched lanes s).drawUm = draw := by rw [State.drawUm, panelSwitched_line]
  have hclosed : panelFollowed lanes s = closePanel (panelSwitched lanes s) := rfl
  have hplain : ∀ l, ((acceptPanel lanes s).lane l).lastRowTally = ((panelFollowed lanes s).lane l).lastRowTally ∧
      ((acceptPanel lanes s).lane l).marksLost = ((panelFollowed lanes s).lane l).marksLost := fun l => by
    rw [hlane]; exact ⟨rfl, rfl⟩
  refine ⟨acceptPanel lanes s, ?service, hqueue.trans ?package, hcounter, fun l => ?lane, fun l => ⟨fun ho hl hw => ?captured,
    fun hn => ?uncaptured, fun hn => ?plan⟩, fun hn => ?noDeferred, fun hleft hcoils => ?joins, ?line, fun hn => ?emptyList,
    fun ho => ?closes, fun ho hl => ?leadIn, fun ho hl hn => ?atOnce, fun v => ⟨hpackage v, fun hp => (hrecipe hp).1 v, fun l =>
      ⟨fun hl => (hpackageLane l hl v).2, fun hp hl => ((hrecipe hp).2 l hl v).2, fun hl => htrim l hl v⟩⟩,
    (congrArg State.positions hframe :), (congrArg State.cals hframe :), (congrArg State.recipes hframe :),
    (congrArg State.forcing hframe :), (congrArg State.inputs hframe :)⟩
  case service =>
    rw [exec_cutDone_ready _ hr, serveCutDone_found (c := .panel) rfl hfind, hwhat]
    rfl
  case package => rw [panelPackage_eq]; rfl
  case lane =>
    obtain ⟨hrow, hlost⟩ := hplain l
    rw [hrow, hlost, ← hswitched]
    exact hlane l
  case captured =>
    rw [(hplain l).1, hclosed, closePanel_captured (hopens.2 ho) (by rw [hnext]; exact hl) (by rw [hnext]; exact hw),
      (panelSwitched_kept lanes s l).2.1]
    rfl
  case uncaptured =>
    rw [(hplain l).1, hclosed, closePanel_uncaptured (by rw [hopens, hnext]; exact hn),
      (panelSwitched_kept lanes s l).2.2.2.1]
  case plan =>
    have hjoin : (acceptPanel lanes s).lane l = (panelFollowed lanes s).lane l := by
      rw [acceptPanel_eq]
      exact joinDeferred_lane (by rw [panelFollowed_cuts]; exact hn)
    rw [hjoin, hclosed, closePanel_lane, (panelSwitched_kept lanes s l).2.2.1]
  case noDeferred =>
    have hcuts : (acceptPanel lanes s).cuts = (panelFollowed lanes s).cuts := by
      rw [acceptPanel_eq]
      exact joinDeferred_nil (by rw [panelFollowed_cuts]; exact hn)
    rw [hcuts, panelFollowed_cuts]
    exact ⟨rfl, hn⟩
  case joins =>
    obtain ⟨hdeferred, hlist, hdue, hended⟩ := acceptPanel_joins (lanes := lanes) hleft hcoils
    refine ⟨hdeferred, hlist, fun e he hreq v => ⟨(hdue e he hreq).1 v, fun l hl => ((hdue e he hreq).2 l ?_ v).2⟩, fun l hl => ?_⟩
    · rw [lanes_coil hl, laneIn_laneBit]; exact decide_eq_true rfl
    · have hpos : ((acceptPanel lanes s).lane l).plan.planPos = (s.lane l).plan.planPos := by
        rw [acceptPanel_eq, (PlansOnly.joinDeferred (panelFollowed lanes s)).planPos, hclosed, closePanel_lane,
          (panelSwitched_kept lanes s l).2.2.1]
      exact ⟨(hended l hl).1, hpos, (hended l hl).2⟩
  case line => rw [hline, panelFollowed_line, panelSwitched_line]
  case emptyList =>
    obtain ⟨hmarks', hstops', hlost⟩ := closePanel_quiet (s := panelSwitched lanes s) (hsrows.trans hn)
    have hstore : (acceptPanel lanes s).marks = (panelTaken lanes s).marks := by
      rw [hmarks, hclosed, hmarks', panelSwitched_marks]
    refine ⟨?_, ?_, fun l => ⟨?_, ?_⟩⟩
    · rw [hstops, hclosed, hstops', hsstops]
    · rw [hstore, panelTaken_nextMade]
    · rw [(hplain l).2, hclosed, hlost, (panelSwitched_kept lanes s l).2.2.2.2, hkept]
    · have hlist : (acceptPanel lanes s).markList l = (panelTaken lanes s).markList l :=
        congrArg (fun v : MarkStore => v.lists[l]) hstore
      rw [hlist, panelTaken_markList]
      rfl
  case closes =>
    rw [hpanel, hrows, hclosed, closePanel_closes (mt hopens.1 ho)]
    exact ⟨congrArg (fun q : Panel => { q with state := .none, halt := false }) hspanel, hsrows⟩
  case leadIn =>
    rw [hpanel, hrows, hclosed, closePanel_opens (hopens.2 ho), openPanel_leadIn (by rw [hnext]; exact hl)]
    refine ⟨hsrows, ?_⟩
    rw [panelOpened, hnext, hsdraw]
    rfl
  case atOnce =>
    have hfirst : panelFollowed lanes s = firstRowDue (panelSwitched lanes s) := by
      rw [hclosed, closePanel_opens (hopens.2 ho), openPanel_atOnce (by rw [hnext]; exact hl) (hsrows.trans hn)]
    have hraised : Raised .rowDue (acceptPanel lanes s) := by
      rw [acceptPanel_eq, hfirst]
      exact (firstRowDue_raised _).heard (PlansOnly.joinDeferred _).heard
    have hum : ∀ l, ((panelSwitched lanes s).lane l).um = (s.lane l).um := fun l => (panelSwitched_kept lanes s l).2.1
    refine ⟨?_, hraised, ?_⟩
    · rw [hrows, hfirst, firstRowDue_rows (hsrows.trans hn), hnext, hsdraw]
      simp only [hum]
      rfl
    · have hstate : (if 0 + 1 = next.panelRows then PanelState.finishing else .laying) =
          if next.panelRows = 1 then .finishing else .laying := if_congr eq_comm rfl rfl
      rw [hpanel, hfirst, firstRowDue_panel, hnext, hsdraw]
      exact congrArg (fun st => ({ Panel.opened next.netWidth draw with state := st, nextRow := 1 } : Panel)) hstate

end Sys2Proof.Machine
end
